-- ==== Sys2Proof/Word.lean ====
section
/-! DEFINITION. The widths of the values the block handles: bytes, 16-bit addresses, 64-bit field buses and the
16-bit operation word (10_state.md R29, R30, R33; 30_encoding.md R80). -/

namespace Sys2Proof

/-- A byte, bit 7 most significant (R8). -/
abbrev Byte := BitVec 8

/-- A routing address, `from` or `to` (R63). -/
abbrev Addr := BitVec 16

/-- A payload field bus, `enc_f<i>` or `res_f<i>` (R30, R33). -/
abbrev Bus := BitVec 64

/-- The operation word `opw` (R80). -/
abbrev OpWord := BitVec 16

end Sys2Proof
end

