-- ==== Sys2Proof/Config.lean ====
section
/-! DEFINITION. The implementation parameters of 00_scope.md R6: the three fixed sizes, the payload variants, and the
build-time configuration with the spec's default. The model has no free value: no operation of the spec leaves a result
undefined. -/

namespace Sys2Proof

/-- `FRAME_LEN`, bytes per frame (R6, R60). -/
abbrev frameLen : Nat := 63

/-- `DATA_LEN`, bytes in the data slot (R6). -/
abbrev dataLen : Nat := 55

/-- `BUF_CAP`, capacity of the SFD buffer, equal to `FRAME_LEN` (R6, R7; decision D4). -/
abbrev bufCap : Nat := 63

/-- The six payload variants, in ordinal order 1 to 6 (R100). -/
inductive Variant where
  | att | alt | gps | ctl | gyr | acc
deriving DecidableEq, Repr

/-- The default tag table is a parameter: one type byte per variant (R6 `TAG`, R100). -/
structure TagTable where
  att : Byte
  alt : Byte
  gps : Byte
  ctl : Byte
  gyr : Byte
  acc : Byte
deriving DecidableEq, Repr

/-- A test-only variant of `EXTRA_VARIANTS` (R6, decision D9). R6 says such a variant is "used only to exercise
`PAYLOAD_TOO_LARGE`", so its serialized form is `56 + excess` bytes: always longer than the data slot.
DEDUCED, log entry 4. -/
structure ExtraVariant where
  tag    : Byte
  excess : Nat
deriving DecidableEq, Repr

/-- The parameters that are fixed when the block is built (R6). `startByte` is `START`, `endByte` is `END`. Of `CRC8` the
three values of R68 are parameters, not the function (DESIGN CHOICE, log entry 6). -/
structure Config where
  startByte : Byte
  endByte   : Byte
  crcPoly   : Byte
  crcInit   : Byte
  crcXorout : Byte
  tags      : TagTable
  extra     : List ExtraVariant
deriving DecidableEq, Repr

/-- The default tags, `TAG(v) = v` (R6, R100; decision D7). -/
def TagTable.default : TagTable :=
  { att := 0x01, alt := 0x02, gps := 0x03, ctl := 0x04, gyr := 0x05, acc := 0x06 }

/-- The default configuration of R6. -/
def Config.default : Config :=
  { startByte := 0xA7, endByte := 0xAA, crcPoly := 0x07, crcInit := 0x00, crcXorout := 0x00,
    tags := TagTable.default, extra := [] }

end Sys2Proof
end

