-- ==== Sys2Proof/Machine/Registry.lean ====
section
/-! DEFINITION. The Payload Registry (40_payload_registry.md): byte order helpers, field formats, the field marshaller
and the tag lookup. -/

namespace Sys2Proof.Machine

/-- `bytes_le_16` of R9. -/
def bytesLe16 (v : BitVec 16) : List Byte :=
  [v.extractLsb' 0 8, v.extractLsb' 8 8]

/-- `bytes_le_32` of R9. -/
def bytesLe32 (v : BitVec 32) : List Byte :=
  [v.extractLsb' 0 8, v.extractLsb' 8 8, v.extractLsb' 16 8, v.extractLsb' 24 8]

/-- `bytes_le_64` of R9. -/
def bytesLe64 (v : BitVec 64) : List Byte :=
  [v.extractLsb' 0 8, v.extractLsb' 8 8, v.extractLsb' 16 8, v.extractLsb' 24 8,
   v.extractLsb' 32 8, v.extractLsb' 40 8, v.extractLsb' 48 8, v.extractLsb' 56 8]

/-- `LE16` of R9: the first byte is the least significant. -/
def le16 (b0 b1 : Byte) : BitVec 16 := b1 ++ b0

/-- `LE32` of R9, on the first 4 bytes of a sequence. -/
def le32 (s : List Byte) : BitVec 32 :=
  s.getD 3 0 ++ s.getD 2 0 ++ s.getD 1 0 ++ s.getD 0 0

/-- `LE64` of R9, on the first 8 bytes of a sequence. -/
def le64 (s : List Byte) : BitVec 64 :=
  s.getD 7 0 ++ s.getD 6 0 ++ s.getD 5 0 ++ s.getD 4 0 ++ s.getD 3 0 ++ s.getD 2 0 ++ s.getD 1 0 ++ s.getD 0 0

/-- The two IEEE-754 field formats (R70). Patterns are copied, never computed with (R121). -/
inductive Format where
  | binary32 | binary64
deriving DecidableEq, Repr

/-- Bytes of a field. -/
def Format.width : Format → Nat
  | .binary32 => 4
  | .binary64 => 8

/-- The byte image of a field taken from its bus: R102 (the upper half of the bus is ignored) and R103. -/
def Format.image : Format → Bus → List Byte
  | .binary32, f => bytesLe32 (f.extractLsb' 0 32)
  | .binary64, f => bytesLe64 f

/-- The bus value of a field read from its bytes: R102 (zero-extended) and R103. -/
def Format.value : Format → List Byte → Bus
  | .binary32, s => (le32 s).setWidth 64
  | .binary64, s => le64 s

/-- The fields of each variant in declaration order (R70, R100, R101). -/
def fields : Variant → List Format
  | .att => [.binary32, .binary32, .binary32]
  | .alt => [.binary32, .binary32]
  | .gps => [.binary64, .binary64, .binary32]
  | .ctl => [.binary32, .binary32, .binary32, .binary32]
  | .gyr => [.binary32, .binary32, .binary32]
  | .acc => [.binary32, .binary32, .binary32]

/-- `W(v)` of R100. -/
def width (v : Variant) : Nat := ((fields v).map Format.width).sum

/-- The variant ordinal of R100, as `res_var` carries it. -/
def ordinal : Variant → BitVec 4
  | .att => 1
  | .alt => 2
  | .gps => 3
  | .ctl => 4
  | .gyr => 5
  | .acc => 6

/-- `TAG(v)` of R100. -/
def tag (c : Config) : Variant → Byte
  | .att => c.tags.att
  | .alt => c.tags.alt
  | .gps => c.tags.gps
  | .ctl => c.tags.ctl
  | .gyr => c.tags.gyr
  | .acc => c.tags.acc

/-- The images of the fields, in order, packed with no padding (R70, R104). A bus beyond the fields is ignored. -/
def marshalFields : List Format → List Bus → List Byte
  | fmt :: fmts, f :: fs => fmt.image f ++ marshalFields fmts fs
  | _, _ => []

/-- `marshal(v, f0, f1, f2, f3)` of R104, for all of R106 to R111. -/
def marshal (v : Variant) (buses : List Bus) : List Byte := marshalFields (fields v) buses

/-- The fields read from the front of a byte sequence, in order (R105). -/
def unmarshalFields : List Format → List Byte → List Bus
  | [], _ => []
  | fmt :: fmts, s => fmt.value (s.take fmt.width) :: unmarshalFields fmts (s.drop fmt.width)

/-- `unmarshal(v, data)` of R105, for all of R112 to R117: it reads the first `W(v)` bytes and ignores the rest. -/
def unmarshal (v : Variant) (data : List Byte) : List Bus := unmarshalFields (fields v) data

/-- `pad55` of R104: the payload left-aligned in the slot, followed by zero bytes. -/
def pad55 (p : List Byte) : List Byte := p ++ List.replicate (dataLen - p.length) 0

/-- The serialized width of an extra variant, always over `DATA_LEN` (log entry 4). -/
def extraWidth (e : ExtraVariant) : Nat := dataLen + 1 + e.excess

/-- The serialized form of an extra variant: `extraWidth` bytes whose "contents do not matter" (95_test_vectors.md X8),
since no rule reads them. -/
def extraMarshal (e : ExtraVariant) : List Byte := List.replicate (extraWidth e) 0

/-- A registered variant: one of the six, or an extra one (R82). -/
inductive Registered where
  | core  (v : Variant)
  | extra (e : ExtraVariant)
deriving DecidableEq, Repr

/-- The six variants in ordinal order. -/
def allVariants : List Variant := [.att, .alt, .gps, .ctl, .gyr, .acc]

/-- Every registered variant: ordinals 1 to 6, then the extra ones "from 7" (R82). -/
def registered (c : Config) : List Registered :=
  allVariants.map .core ++ c.extra.map .extra

/-- `TAG` of a registered variant. -/
def Registered.tag (c : Config) : Registered → Byte
  | .core v => Machine.tag c v
  | .extra e => e.tag

/-- `lookup(t)` of R118. -/
def lookup (c : Config) (t : Byte) : Option Registered :=
  (registered c).find? fun r => r.tag c == t

/-- The extra variant with ordinal `n`: "each extra variant takes the next free ordinal from 7" (R82). -/
def extraOfOrdinal (c : Config) (n : Nat) : Option ExtraVariant :=
  if n < 7 then none else c.extra[n - 7]?

end Sys2Proof.Machine
end

