-- ==== Sys2Proof/Syntax.lean ====
section
/-! DEFINITION. The operations of the block, one constructor per row of spec/opcode_table.json (30_encoding.md R81). -/

namespace Sys2Proof

/-- The eleven operations (R81). Their other inputs are the operand buses of R30 to R32, which are no part of the word. -/
inductive Instr where
  | nop
  | feed (b : Byte)
  | dreset
  | encfAtt
  | encfAlt
  | encfGps
  | encfCtl
  | encfGyr
  | encfAcc
  | decf
  | decp
deriving DecidableEq, Repr

end Sys2Proof
end

