-- ==== Sys2Proof/Decode.lean ====
section
/-! DEFINITION. The operation word: its fields, the opcode table, the decoder and the encoder (30_encoding.md R80 to R84). -/

namespace Sys2Proof

/-- `OP`, bits 15 to 12 (R80). -/
def opField (w : OpWord) : BitVec 4 := w.extractLsb' 12 4

/-- `SEL`, bits 11 to 8 (R80). -/
def selField (w : OpWord) : BitVec 4 := w.extractLsb' 8 4

/-- `IMM`, bits 7 to 0 (R80). -/
def immField (w : OpWord) : Byte := w.extractLsb' 0 8

/-- A row of the table of R81. -/
structure Row where
  pattern : OpWord
  mask    : OpWord
deriving DecidableEq, Repr

/-- `(opw AND mask) = match` (R81). -/
def Row.hits (r : Row) (w : OpWord) : Bool := w &&& r.mask == r.pattern

/-- The row of each operation, from the table of R81. -/
def rowOf : Instr → Row
  | .nop => ⟨0x0000, 0xFFFF⟩
  | .feed _ => ⟨0x1000, 0xFF00⟩
  | .dreset => ⟨0x2000, 0xFFFF⟩
  | .encfAtt => ⟨0x3100, 0xFFFF⟩
  | .encfAlt => ⟨0x3200, 0xFFFF⟩
  | .encfGps => ⟨0x3300, 0xFFFF⟩
  | .encfCtl => ⟨0x3400, 0xFFFF⟩
  | .encfGyr => ⟨0x3500, 0xFFFF⟩
  | .encfAcc => ⟨0x3600, 0xFFFF⟩
  | .decf => ⟨0x4000, 0xFFFF⟩
  | .decp => ⟨0x5000, 0xFFFF⟩

/-- The eleven operations a word may stand for, in the table's order, FEED with the word's own `IMM`. -/
def candidates (w : OpWord) : List Instr :=
  [.nop, .feed (immField w), .dreset, .encfAtt, .encfAlt, .encfGps, .encfCtl, .encfGyr, .encfAcc, .decf, .decp]

/-- Why a word matches no row: the cases of R83. -/
inductive IllegalWord where
  /-- `OP` in 0x6 to 0xF. -/
  | unassignedOp
  /-- `OP` = 0x0, 0x2, 0x4 or 0x5 with a nonzero bit in `opw[11:0]`. -/
  | nonzeroOperandBits
  /-- `OP` = 0x1 with `SEL != 0`. -/
  | feedSelector
  /-- `OP` = 0x3 with `SEL` none of the six ordinals. -/
  | encfSelector
  /-- `OP` = 0x3 with one of the six ordinals and `IMM != 0`. -/
  | encfImmediate
deriving DecidableEq, Repr

/-- The case of R83 a word that matches no row falls under. -/
def illegalCase (w : OpWord) : IllegalWord :=
  if 6 ≤ (opField w).toNat then .unassignedOp
  else if opField w = 1 then .feedSelector
  else if opField w = 3 then
    if 1 ≤ (selField w).toNat ∧ (selField w).toNat ≤ 6 then .encfImmediate else .encfSelector
  else .nonzeroOperandBits

/-- What the decoder reads from a word: an operation, or a rejection by name. -/
inductive Decoded where
  | op      (i : Instr)
  | illegal (why : IllegalWord)
deriving DecidableEq, Repr

/-- "A decoder selects the first row whose `(opw AND mask) = match`" (R81); a word of no row is illegal (R83). -/
def decode (w : OpWord) : Decoded :=
  match (candidates w).find? fun i => (rowOf i).hits w with
  | some i => .op i
  | none => .illegal (illegalCase w)

/-- A word from its three fields (R80). -/
def wordOf (op sel : BitVec 4) (imm : Byte) : OpWord := op ++ sel ++ imm

/-- The word of an operation (R80, R81). -/
def encode : Instr → OpWord
  | .nop => wordOf 0x0 0x0 0x00
  | .feed b => wordOf 0x1 0x0 b
  | .dreset => wordOf 0x2 0x0 0x00
  | .encfAtt => wordOf 0x3 0x1 0x00
  | .encfAlt => wordOf 0x3 0x2 0x00
  | .encfGps => wordOf 0x3 0x3 0x00
  | .encfCtl => wordOf 0x3 0x4 0x00
  | .encfGyr => wordOf 0x3 0x5 0x00
  | .encfAcc => wordOf 0x3 0x6 0x00
  | .decf => wordOf 0x4 0x0 0x00
  | .decp => wordOf 0x5 0x0 0x00

/-- The extra variant whose ENCF word `0x3s00` this is, "legal in that configuration only" (R82). -/
def extraWord (c : Config) (w : OpWord) : Option ExtraVariant :=
  if opField w = 3 ∧ immField w = 0 then Machine.extraOfOrdinal c (selField w).toNat else none

/-- The operation the decoder reads from a word given as a number of `nbits` bits, the bits above being zero. -/
def decodeTableWord (nbits w : Nat) : Option Instr :=
  match decode (BitVec.ofNat 16 (w % 2 ^ nbits)) with
  | .op i => some i
  | .illegal _ => none

end Sys2Proof
end

