-- ==== Sys2Proof/Machine/State.lean ====
section
/-! DEFINITION. The state of one block instance (10_state.md), its reset value, and the ways a step can stop. -/

namespace Sys2Proof.Machine

/-- The SFD state tag `st`, all four codes of its 2 bits (R24). -/
inductive SfdTag where
  | seeking | accumulating | complete | reserved
deriving DecidableEq, Repr

/-- `res_status`, all sixteen codes of its 4 bits (R90): codes 0x8 to 0xF are `reserved`. -/
inductive Status where
  | ok | payloadTooLarge | frameTooShort | invalidFrame | crcMismatch | unknownType | malformedPayload
  | illegalOperation
  | reserved (low : Fin 8)
deriving DecidableEq, Repr

/-- `res_event`, all eight codes of its 3 bits (R91). -/
inductive Event where
  | none | discard | start | append | emit | resyncKeep | resyncDrop | cleared
deriving DecidableEq, Repr

/-- `res_fail`, all four codes of its 2 bits (R92). -/
inductive Fail where
  | none | invalidFrame | crcMismatch | overflow
deriving DecidableEq, Repr

/-- The result register `RES` (R33). -/
structure Res where
  valid     : Bool
  op        : BitVec 4
  status    : Status
  frameOk   : Bool
  event     : Event
  fail      : Fail
  fromAddr  : Addr
  toAddr    : Addr
  typ       : Byte
  data      : Vector Byte 55
  integrity : Byte
  consumed  : BitVec 7
  frame     : Vector Byte 63
  var       : BitVec 4
  f0        : Bus
  f1        : Bus
  f2        : Bus
  f3        : Bus
deriving DecidableEq, Repr

/-- `Res0`, "the record with every field 0" (R33). -/
def Res.zero : Res :=
  { valid := false, op := 0, status := .ok, frameOk := false, event := .none, fail := .none,
    fromAddr := 0, toAddr := 0, typ := 0, data := Vector.replicate 55 0, integrity := 0, consumed := 0,
    frame := Vector.replicate 63 0, var := 0, f0 := 0, f1 := 0, f2 := 0, f3 := 0 }

/-- The valid bytes of the SFD buffer, `buf[0..len)`, oldest first (R23). "A model may … represent `buf` as a list of
length `len`": the bytes at `len` and above hold no defined value and are not represented (log entry 1). -/
structure Buf where
  bytes  : List Byte
  le_cap : bytes.length ≤ bufCap
deriving DecidableEq, Repr

/-- The buffer with `len` = 0. -/
def Buf.empty : Buf := ⟨[], by decide⟩

/-- The values on the input ports in one clock cycle (R29 to R32). `clk` itself is the step. -/
structure Ports where
  rst      : Bool
  opValid  : Bool
  opw      : OpWord
  encFrom  : Addr
  encTo    : Addr
  encF0    : Bus
  encF1    : Bus
  encF2    : Bus
  encF3    : Bus
  win      : Vector Byte 63
  winLen   : Byte
  dpType   : Byte
  dpData   : Vector Byte 55
deriving DecidableEq, Repr

/-- A cycle in which the host presents nothing: `rst` = 0 and `op_valid` = 0. The other ports are not read then; their
zeros are a DESIGN CHOICE (log entry 2). -/
def Ports.idle : Ports :=
  { rst := false, opValid := false, opw := 0, encFrom := 0, encTo := 0, encF0 := 0, encF1 := 0, encF2 := 0,
    encF3 := 0, win := Vector.replicate 63 0, winLen := 0, dpType := 0, dpData := Vector.replicate 55 0 }

/-- The block raises no fault: "There is no trap entry … because no operation transfers control" (R203), and every
error is a status in `RES` (R200). So there is no reason to name. -/
inductive Fault where
deriving DecidableEq, Repr

/-- Why a step has no meaning. -/
inductive Refusal where
  /-- An arm of `exec` that has no meaning yet. No arm raises it: every operation is modelled. Safe. -/
  | notModelled (mnemonic : String)
  /-- Raised by `step` alone, when the configuration fails the build-time check: "A model refuses a configuration that
  fails this check" (R7). Safe: no run of a block that can be built is cut short. -/
  | configIllFormed
deriving DecidableEq, Repr

/-- The state of one instance. `st`, `buf` (with `len`, its length) and `res` are the architectural state (R20). The
other two are the model's own: `cfg` holds the build-time parameters (R6), which nothing writes (R36; log entry 3), and
`cycles` what the host drives on the input ports in this and the coming cycles, the present one first (R29; log
entry 2). -/
structure State where
  st     : SfdTag
  buf    : Buf
  res    : Res
  cfg    : Config
  cycles : List Ports
deriving DecidableEq, Repr

/-- The SFD length register `len`, 6 bits: "the number of valid bytes in `buf`" (R25). -/
def State.len (s : State) : BitVec 6 := BitVec.ofNat 6 s.buf.bytes.length

/-- The state right after reset (R37, R230), with the default configuration (R6) and a host that drives nothing. -/
def State.reset : State :=
  { st := .seeking, buf := Buf.empty, res := Res.zero, cfg := Config.default, cycles := [] }

end Sys2Proof.Machine
end

