-- ==== Sys2Proof/Machine/Flags.lean ====
section
/-! DEFINITION. The code values the outputs carry (10_state.md R24, R28, R29; 30_encoding.md R90 to R92). The block has
no flags or condition codes other than these (R35). -/

namespace Sys2Proof.Machine

/-- The code of `st` (R24). -/
def SfdTag.code : SfdTag → BitVec 2
  | .seeking => 0
  | .accumulating => 1
  | .complete => 2
  | .reserved => 3

/-- The code on `res_status` (R90). -/
def Status.code : Status → BitVec 4
  | .ok => 0
  | .payloadTooLarge => 1
  | .frameTooShort => 2
  | .invalidFrame => 3
  | .crcMismatch => 4
  | .unknownType => 5
  | .malformedPayload => 6
  | .illegalOperation => 7
  | .reserved low => BitVec.ofNat 4 (8 + low.val)

/-- The code on `res_event` (R91). -/
def Event.code : Event → BitVec 3
  | .none => 0
  | .discard => 1
  | .start => 2
  | .append => 3
  | .emit => 4
  | .resyncKeep => 5
  | .resyncDrop => 6
  | .cleared => 7

/-- The code on `res_fail` (R92). -/
def Fail.code : Fail → BitVec 2
  | .none => 0
  | .invalidFrame => 1
  | .crcMismatch => 2
  | .overflow => 3

/-- The read-only status output `sfd_state`, "always equals `st`" (R28). -/
def State.sfdState (s : State) : BitVec 2 := s.st.code

/-- The read-only status output `sfd_len`, "always equals `len`" (R28). -/
def State.sfdLen (s : State) : BitVec 6 := s.len

/-- The output `op_ready`, "constant 1" (R29). -/
def State.opReady (_ : State) : Bool := true

/-- The outcome of `frame_check` (R139). -/
inductive Verdict where
  | ok | invalidFrame | crcMismatch
deriving DecidableEq, Repr

/-- The status DECF reports for a verdict (R141). -/
def Verdict.status : Verdict → Status
  | .ok => .ok
  | .invalidFrame => .invalidFrame
  | .crcMismatch => .crcMismatch

/-- The reason FEED records for a rejected candidate: `r = INVALID_FRAME ? INVALID_FRAME : CRC_MISMATCH` (R166, R167). -/
def Verdict.fail : Verdict → Fail
  | .ok => .none
  | .invalidFrame => .invalidFrame
  | .crcMismatch => .crcMismatch

end Sys2Proof.Machine
end

