-- ==== Sys2Proof/Machine/Operands.lean ====
section
/-! DEFINITION. Operand forms: the input ports of the present cycle and the views the operations take of them
(10_state.md R29 to R32), and fixed-size byte sequences. -/

namespace Sys2Proof.Machine

/-- The input ports of the present cycle. When the host has nothing more to drive it drives nothing (log entry 2). -/
def State.ports (s : State) : Ports := s.cycles.headD Ports.idle

/-- `enc_f0` to `enc_f3` in order (R101). -/
def Ports.buses (p : Ports) : List Bus := [p.encF0, p.encF1, p.encF2, p.encF3]

/-- A byte sequence of exactly `n` bytes as fixed-size storage (a longer one cut, a shorter one followed by zeros; no
rule presents either). -/
def bytesVec (n : Nat) (l : List Byte) : Vector Byte n :=
  ⟨⟨(l ++ List.replicate n 0).take n⟩, by simp⟩

/-- A buffer of the bytes given, at most `BUF_CAP` of them (R23; no rule presents more). -/
def Buf.ofList (l : List Byte) : Buf := ⟨l.take bufCap, by simp⟩

end Sys2Proof.Machine
end

