-- ==== Sys2Proof/Machine/Ops.lean ====
section
/-! DEFINITION. The shared operations: the integrity function, building, checking and parsing a frame, result records,
and the writes to the state. The block takes no exception and returns from none (60_exceptions.md R203, R204): an error
is a result record with a nonzero status, built by `result`. -/

namespace Sys2Proof.Machine

/-- One shift of `CRC8`: bit 7 out, and the polynomial in when it was 1 (R68). -/
def crcShift (poly c : Byte) : Byte :=
  if c.getLsbD 7 then (c <<< 1) ^^^ poly else c <<< 1

/-- One byte of `CRC8`: exclusive or, then eight shifts (R68). -/
def crcByte (poly c b : Byte) : Byte := (crcShift poly)^[8] (c ^^^ b)

/-- `CRC8(seq)` (R68). -/
def crc8 (cfg : Config) (bs : List Byte) : Byte :=
  bs.foldl (crcByte cfg.crcPoly) cfg.crcInit ^^^ cfg.crcXorout

/-- Bytes 0 to 60 of a frame: header and data slot (R60, R61, R132). -/
def frameBody (cfg : Config) (fromAddr toAddr : Addr) (typ : Byte) (payload : List Byte) : List Byte :=
  [cfg.startByte] ++ bytesLe16 fromAddr ++ bytesLe16 toAddr ++ [typ] ++ pad55 payload

/-- The 63 bytes of a frame (R60, R132). -/
def buildFrame (cfg : Config) (fromAddr toAddr : Addr) (typ : Byte) (payload : List Byte) : List Byte :=
  frameBody cfg fromAddr toAddr typ payload ++ [crc8 cfg (frameBody cfg fromAddr toAddr typ payload)] ++ [cfg.endByte]

/-- `frame_check(w)` (R139): the sentinels first, then the integrity byte. -/
def frameCheck (cfg : Config) (w : Vector Byte 63) : Verdict :=
  if w[0] ≠ cfg.startByte ∨ w[62] ≠ cfg.endByte then .invalidFrame
  else if crc8 cfg (w.toList.take 61) ≠ w[61] then .crcMismatch
  else .ok

/-- The frame record of R140; `consumed` is the constant 63. -/
structure FrameRecord where
  fromAddr  : Addr
  toAddr    : Addr
  typ       : Byte
  data      : Vector Byte 55
  integrity : Byte
deriving DecidableEq, Repr

/-- `parse(w)` (R140). -/
def parse (w : Vector Byte 63) : FrameRecord :=
  { fromAddr := le16 w[1] w[2], toAddr := le16 w[3] w[4], typ := w[5],
    data := bytesVec 55 ((w.toList.drop 6).take 55), integrity := w[61] }

/-- `emit(F)`: the frame fields of the result, and `res_frame_ok` (R10, R140). -/
def emit (r : Res) (f : FrameRecord) : Res :=
  { r with
    fromAddr := f.fromAddr, toAddr := f.toAddr, typ := f.typ, data := f.data, integrity := f.integrity,
    consumed := 63, frameOk := true }

/-- The start of every result: `Res0` with `res_valid` = 1, the operation and its status (R33, R131, R149, R160). -/
def result (op : BitVec 4) (st : Status) : Res :=
  { Res.zero with valid := true, op := op, status := st }

/-- Write `RES` (R34). -/
def State.withRes (s : State) (r : Res) : State := { s with res := r }

/-- Write the SFD state `st`, `len` and `buf` (R23 to R25). -/
def State.withSfd (s : State) (t : SfdTag) (b : Buf) : State := { s with st := t, buf := b }

/-- `st <- SEEKING; len <- 0` (R161, R165, R167, R168, R230). -/
def State.seek (s : State) : State := s.withSfd .seeking Buf.empty

/-- Reset: the values of R37 for `st`, `len` and `RES` (R230). -/
def State.resetBlock (s : State) : State := s.seek.withRes Res.zero

/-- The clock moves on: the host's next values are at the input ports. -/
def State.nextCycle (s : State) : State := { s with cycles := s.cycles.tail }

/-- What an accepted operation leaves, at the start of the next cycle. -/
def atNextCycle : Host.Outcome State Fault Refusal → Host.Outcome State Fault Refusal
  | .next t => .next t.nextCycle
  | .fault r => .fault r
  | .refused r => .refused r

end Sys2Proof.Machine
end

