-- ==== Sys2Proof/Machine/Codec.lean ====
section
/-! DEFINITION. The Frame Codec operations (41_frame_codec.md): NOP, ENCF, DECF, DECP, and the effect of an illegal word.
Each writes only `RES` (R130). -/

namespace Sys2Proof.Machine

/-- NOP (R131). -/
def execNop (s : State) : Host.Outcome State Fault Refusal :=
  .next (s.withRes (result 0x0 .ok))

/-- The result of ENCF for a type tag and a serialized payload (R132). -/
def encodeResult (cfg : Config) (p : Ports) (typ : Byte) (payload : List Byte) : Res :=
  if dataLen < payload.length then result 0x3 .payloadTooLarge
  else { result 0x3 .ok with frame := bytesVec 63 (buildFrame cfg p.encFrom p.encTo typ payload) }

/-- ENCF(v) for one of the six variants (R132). -/
def encodeVariant (v : Variant) (s : State) : State :=
  s.withRes (encodeResult s.cfg s.ports (tag s.cfg v) (marshal v s.ports.buses))

/-- ENCF.ATT (R133, R106). -/
def execEncfAtt (s : State) : Host.Outcome State Fault Refusal := .next (encodeVariant .att s)

/-- ENCF.ALT (R134, R107). -/
def execEncfAlt (s : State) : Host.Outcome State Fault Refusal := .next (encodeVariant .alt s)

/-- ENCF.GPS (R135, R108). -/
def execEncfGps (s : State) : Host.Outcome State Fault Refusal := .next (encodeVariant .gps s)

/-- ENCF.CTL (R136, R109). -/
def execEncfCtl (s : State) : Host.Outcome State Fault Refusal := .next (encodeVariant .ctl s)

/-- ENCF.GYR (R137, R110). -/
def execEncfGyr (s : State) : Host.Outcome State Fault Refusal := .next (encodeVariant .gyr s)

/-- ENCF.ACC (R138, R111). -/
def execEncfAcc (s : State) : Host.Outcome State Fault Refusal := .next (encodeVariant .acc s)

/-- ENCF of an extra variant, in a configuration that has one (R82, R119, R132). -/
def execEncfExtra (e : ExtraVariant) (s : State) : Host.Outcome State Fault Refusal :=
  .next (s.withRes (encodeResult s.cfg s.ports e.tag (extraMarshal e)))

/-- The result of DECF (R141 to R145). -/
def decodeFrameResult (cfg : Config) (p : Ports) : Res :=
  if p.winLen.toNat < frameLen then result 0x4 .frameTooShort
  else
    match frameCheck cfg p.win with
    | .ok => emit (result 0x4 .ok) (parse p.win)
    | .invalidFrame => result 0x4 .invalidFrame
    | .crcMismatch => result 0x4 .crcMismatch

/-- DECF (R141). -/
def execDecf (s : State) : Host.Outcome State Fault Refusal :=
  .next (s.withRes (decodeFrameResult s.cfg s.ports))

/-- The result of DECP (R146 to R148). An extra variant is always wider than the slot. -/
def decodePayloadResult (cfg : Config) (p : Ports) : Res :=
  match lookup cfg p.dpType with
  | none => result 0x5 .unknownType
  | some (.extra _) => result 0x5 .malformedPayload
  | some (.core v) =>
    if dataLen < width v then result 0x5 .malformedPayload
    else
      let f := unmarshal v p.dpData.toList
      { result 0x5 .ok with
        f0 := f.getD 0 0, f1 := f.getD 1 0, f2 := f.getD 2 0, f3 := f.getD 3 0, var := ordinal v, typ := p.dpType }

/-- DECP (R146). -/
def execDecp (s : State) : Host.Outcome State Fault Refusal :=
  .next (s.withRes (decodePayloadResult s.cfg s.ports))

/-- An accepted word that matches no row (R149): `op` is its `OP` field. -/
def execIllegal (op : BitVec 4) (s : State) : Host.Outcome State Fault Refusal :=
  .next (s.withRes (result op .illegalOperation))

end Sys2Proof.Machine
end

