-- ==== Sys2Proof/Machine/Sfd.lean ====
section
/-! DEFINITION. The Streaming Frame Decoder operations (42_stream_decoder.md): FEED and DRESET. -/

namespace Sys2Proof.Machine

/-- The result of a FEED: status OK, with the event and the reason a candidate was rejected (R160). -/
def feedResult (e : Event) (f : Fail) : Res := { result 0x1 .ok with event := e, fail := f }

/-- Branch DEFENSIVE: the byte is discarded, even if it is `START` (R161). -/
def feedDefensive (s : State) : State := s.seek.withRes (feedResult .cleared .overflow)

/-- Branch SEEK (R162). -/
def feedSeek (b : Byte) (s : State) : State :=
  if b = s.cfg.startByte then (s.withSfd .accumulating (Buf.ofList [b])).withRes (feedResult .start .none)
  else s.seek.withRes (feedResult .discard .none)

/-- Branch APPEND, for `c = buf[0..len) ++ [b]` (R163). -/
def feedAppend (c : List Byte) (s : State) : State :=
  (s.withSfd .accumulating (Buf.ofList c)).withRes (feedResult .append .none)

/-- Branch EMIT (R165). -/
def feedEmit (w : Vector Byte 63) (s : State) : State :=
  s.seek.withRes (emit (feedResult .emit .none) (parse w))

/-- A rejected candidate: the first byte is discarded and the rest, up to its first `START`, dropped. Branch
RESYNC_KEEP when there is one (R166), RESYNC_DROP when there is none (R167). -/
def feedReject (r : Verdict) (c : List Byte) (s : State) : State :=
  let rest := c.drop 1
  match rest.findIdx? (· == s.cfg.startByte) with
  | some k => (s.withSfd .accumulating (Buf.ofList (rest.drop k))).withRes (feedResult .resyncKeep r.fail)
  | none => s.seek.withRes (feedResult .resyncDrop r.fail)

/-- The candidate check: `c` is the full 63-byte candidate (R164). -/
def feedCandidate (c : List Byte) (s : State) : State :=
  match frameCheck s.cfg (bytesVec 63 c) with
  | .ok => feedEmit (bytesVec 63 c) s
  | .invalidFrame => feedReject .invalidFrame c s
  | .crcMismatch => feedReject .crcMismatch c s

/-- FEED(b): exactly one branch (R160). -/
def feed (b : Byte) (s : State) : State :=
  if (s.st ≠ .seeking ∧ s.st ≠ .accumulating)
      ∨ (s.st = .accumulating ∧ (s.buf.bytes.length = 0 ∨ bufCap ≤ s.buf.bytes.length)) then
    feedDefensive s
  else if s.st = .seeking then feedSeek b s
  else
    let c := s.buf.bytes ++ [b]
    if c.length < frameLen then feedAppend c s else feedCandidate c s

/-- FEED (R160). -/
def execFeed (b : Byte) (s : State) : Host.Outcome State Fault Refusal := .next (feed b s)

/-- DRESET (R168), from every state: a second DRESET in a row leaves the state the first one left, where R50 says in words
that DRESET is not idempotent. DESIGN CHOICE, log entry 9. -/
def execDreset (s : State) : Host.Outcome State Fault Refusal :=
  .next (s.seek.withRes { result 0x2 .ok with event := .cleared })

end Sys2Proof.Machine
end

