-- ==== Sys2Proof/Machine/Dispatch.lean ====
section
/-! DEFINITION. One arm per operation (30_encoding.md R81): `Step(S, op, in)` of 00_scope.md R11, the operand buses being
those of the present cycle. -/

namespace Sys2Proof.Machine

def exec (i : Instr) (s : State) : Host.Outcome State Fault Refusal :=
  match i with
  | .nop => Sys2Proof.Machine.execNop s
  | .feed b => Sys2Proof.Machine.execFeed b s
  | .dreset => Sys2Proof.Machine.execDreset s
  | .encfAtt => Sys2Proof.Machine.execEncfAtt s
  | .encfAlt => Sys2Proof.Machine.execEncfAlt s
  | .encfGps => Sys2Proof.Machine.execEncfGps s
  | .encfCtl => Sys2Proof.Machine.execEncfCtl s
  | .encfGyr => Sys2Proof.Machine.execEncfGyr s
  | .encfAcc => Sys2Proof.Machine.execEncfAcc s
  | .decf => Sys2Proof.Machine.execDecf s
  | .decp => Sys2Proof.Machine.execDecp s

end Sys2Proof.Machine
end

