-- ==== Sys2Proof/Machine/Sequencer.lean ====
section
/-! DEFINITION. The operation sequencer (00_scope.md R13): what one clock cycle does (10_state.md R29;
70_reset_and_hazards.md R230, R231), and the word presented to it. -/

namespace Sys2Proof.Machine

/-- The effect of an accepted word: the operation of its row, ENCF of an extra variant where the configuration has
it (R82), or the effect of an illegal word (R149). -/
def acceptWord (w : OpWord) (s : State) : Host.Outcome State Fault Refusal :=
  match decode w with
  | .op i => exec i s
  | .illegal _ =>
    match extraWord s.cfg w with
    | some e => execEncfExtra e s
    | none => execIllegal (opField w) s

/-- One clock cycle of a well-formed configuration: reset wins over an operation (R231); an operation is accepted when
`rst` = 0 and `op_valid` = 1; otherwise nothing happens (R29). -/
def cycle (s : State) : Host.Outcome State Fault Refusal :=
  if s.ports.rst then .next s.resetBlock.nextCycle
  else if s.ports.opValid then atNextCycle (acceptWord s.ports.opw s)
  else .next s.nextCycle

/-- The ports of a cycle in which the word `w` is presented as an operation; the operand buses stay as they are. -/
def Ports.presenting (p : Ports) (w : OpWord) : Ports := { p with rst := false, opValid := true, opw := w }

end Sys2Proof.Machine
end

