-- ==== Sys2Proof/WellFormed.lean ====
section
/-! DEFINITION. Well-formedness: the build-time check of a configuration (00_scope.md R7), and of an operation. -/

namespace Sys2Proof

/-- The build-time check of R7: `START != END`; the tags of the registered variants all differ; every registered
variant but an extra one fits the data slot; `BUF_CAP = FRAME_LEN`. -/
def Config.wf (c : Config) : Bool :=
  decide (c.startByte ≠ c.endByte)
    && decide ((Machine.registered c).map (·.tag c)).Nodup
    && Machine.allVariants.all (fun v => decide (Machine.width v ≤ dataLen))
    && decide (bufCap = frameLen)

/-- Every term of `Instr` is an operation: FEED takes every byte (R160) and no other row has an operand in its word
(R81), so the type leaves nothing to refuse. -/
def Instr.wf : Instr → Bool
  | .nop => true
  | .feed _ => true
  | .dreset => true
  | .encfAtt => true
  | .encfAlt => true
  | .encfGps => true
  | .encfCtl => true
  | .encfGyr => true
  | .encfAcc => true
  | .decf => true
  | .decp => true

end Sys2Proof
end

