-- ==== Sys2Proof/Machine/Step.lean ====
section
/-! DEFINITION. One step of the machine: one rising edge of `clk` (10_state.md R29; log entry 7). -/

namespace Sys2Proof.Machine

/-- One step: "A model refuses a configuration that fails this check" (R7, R234; log entry 8). -/
def step (s : State) : Host.Outcome State Fault Refusal :=
  if s.cfg.wf then cycle s else .refused .configIllFormed

/-- The host presents the word `w` in the present cycle (log entry 2). The operand buses of that cycle and the later
cycles stay. -/
def State.withFetchWord (s : State) (nbits w : Nat) : State :=
  { s with cycles := s.ports.presenting (BitVec.ofNat 16 (w % 2 ^ nbits)) :: s.cycles.tail }

end Sys2Proof.Machine
end

