-- ==== Sys2Proof/Machine/Program.lean ====
section
/-! DEFINITION. How a host drives the block: the assembly lines of 30_encoding.md R85 and R86 as data, the port values
each one presents, and a stream fed byte by byte (42_stream_decoder.md R171). Log entry 5. -/

namespace Sys2Proof.Machine

/-- A `<b32>` or `<b64>` operand: "raw hex bit patterns … or decimal literals" (R85). The decimal literal is
`digits / 10 ^ places`, negated when `neg`. -/
inductive Literal where
  | bits (pattern : Nat)
  | decimal (neg : Bool) (digits places : Nat)
deriving DecidableEq, Repr

/-- `num / den` rounded to the nearest natural number, ties to even. -/
def roundNearestEven (num den : Nat) : Nat :=
  let q := num / den
  let r := num % den
  if 2 * r < den then q else if den < 2 * r then q + 1 else q + q % 2

/-- The largest `e` with `2 ^ e ≤ num / den`. -/
def floorLog2 (num den : Nat) : Int :=
  let l : Int := (Nat.log2 num : Int) - (Nat.log2 den : Int)
  if den * 2 ^ l.toNat ≤ num * 2 ^ (-l).toNat then l else l - 1

/-- The IEEE-754 pattern of `num / den` in the format with `fracBits` fraction bits and `expBits` exponent bits, rounded
to nearest, ties to even (R85). One expression serves normal and subnormal numbers: the exponent field counts up by one
when the rounded significand reaches the next power of two. -/
def floatPattern (fracBits expBits : Nat) (neg : Bool) (num den : Nat) : Nat :=
  let minExp : Int := 2 - 2 ^ (expBits - 1)
  let e : Int := max (floorLog2 num den) minExp
  let shift : Int := fracBits - e
  let significand := roundNearestEven (num * 2 ^ shift.toNat) (den * 2 ^ (-shift).toNat)
  let magnitude := if num = 0 then 0 else (e - minExp).toNat * 2 ^ fracBits + significand
  let infinity := (2 ^ expBits - 1) * 2 ^ fracBits
  min magnitude infinity + (if neg then 2 ^ (fracBits + expBits) else 0)

/-- The binary32 pattern of an operand, on its 64-bit bus. -/
def Literal.b32 : Literal → Bus
  | .bits n => (BitVec.ofNat 32 n).setWidth 64
  | .decimal neg digits places => (BitVec.ofNat 32 (floatPattern 23 8 neg digits (10 ^ places))).setWidth 64

/-- The binary64 pattern of an operand, on its 64-bit bus. -/
def Literal.b64 : Literal → Bus
  | .bits n => BitVec.ofNat 64 n
  | .decimal neg digits places => BitVec.ofNat 64 (floatPattern 52 11 neg digits (10 ^ places))

/-- A line of a program (R85, R86). -/
inductive AsmLine where
  | nop
  | feed (b : Byte)
  | dreset
  | encfAtt (fromAddr toAddr : Addr) (roll pitch yaw : Literal)
  | encfAlt (fromAddr toAddr : Addr) (altitude climbRate : Literal)
  | encfGps (fromAddr toAddr : Addr) (lat lon alt : Literal)
  | encfCtl (fromAddr toAddr : Addr) (roll pitch yaw throttle : Literal)
  | encfGyr (fromAddr toAddr : Addr) (x y z : Literal)
  | encfAcc (fromAddr toAddr : Addr) (x y z : Literal)
  | decf (window : List Byte)
  | decp (typ : Byte) (data : Vector Byte 55)
  | word (w : OpWord)
  | feeds (bs : List Byte)
  | feedsFrame (n : Nat)
deriving DecidableEq, Repr

/-- A cycle that presents a word, every operand bus 0 (R85). -/
def presentWord (w : OpWord) : Ports := { Ports.idle with opValid := true, opw := w }

/-- A cycle that presents an operation. -/
def present (i : Instr) : Ports := presentWord (encode i)

/-- A cycle that presents an ENCF: `from`/`to` on `enc_from`/`enc_to`, the fields on `enc_f0`, `enc_f1`, … (R85). -/
def presentEncf (i : Instr) (fromAddr toAddr : Addr) (f0 f1 f2 f3 : Bus) : Ports :=
  { present i with encFrom := fromAddr, encTo := toAddr, encF0 := f0, encF1 := f1, encF2 := f2, encF3 := f3 }

/-- A cycle that presents a DECF of a window: its length saturated at 255, the unused window bytes 0 (R31, R85). -/
def presentDecf (window : List Byte) : Ports :=
  { present .decf with win := bytesVec 63 window, winLen := BitVec.ofNat 8 (min window.length 255) }

/-- A cycle that presents a DECP (R85). -/
def presentDecp (typ : Byte) (data : Vector Byte 55) : Ports :=
  { present .decp with dpType := typ, dpData := data }

/-- The frame that a cycle's ENCF of variant `v` produces. -/
def frameOfPorts (cfg : Config) (v : Variant) (p : Ports) : List Byte :=
  buildFrame cfg p.encFrom p.encTo (tag cfg v) (marshal v p.buses)

/-- The cycles a line presents, and the frame it produces when it is an ENCF; `frames` are those of the ENCF lines
before it. `none`: the line asks for a frame that no line before it produced (R86). -/
def AsmLine.cycles (cfg : Config) (frames : List (List Byte)) : AsmLine → Option (List Ports × List (List Byte))
  | .nop => some ([present .nop], [])
  | .feed b => some ([present (.feed b)], [])
  | .dreset => some ([present .dreset], [])
  | .encfAtt f t roll pitch yaw =>
    let p := presentEncf .encfAtt f t roll.b32 pitch.b32 yaw.b32 0
    some ([p], [frameOfPorts cfg .att p])
  | .encfAlt f t altitude climbRate =>
    let p := presentEncf .encfAlt f t altitude.b32 climbRate.b32 0 0
    some ([p], [frameOfPorts cfg .alt p])
  | .encfGps f t lat lon alt =>
    let p := presentEncf .encfGps f t lat.b64 lon.b64 alt.b32 0
    some ([p], [frameOfPorts cfg .gps p])
  | .encfCtl f t roll pitch yaw throttle =>
    let p := presentEncf .encfCtl f t roll.b32 pitch.b32 yaw.b32 throttle.b32
    some ([p], [frameOfPorts cfg .ctl p])
  | .encfGyr f t x y z =>
    let p := presentEncf .encfGyr f t x.b32 y.b32 z.b32 0
    some ([p], [frameOfPorts cfg .gyr p])
  | .encfAcc f t x y z =>
    let p := presentEncf .encfAcc f t x.b32 y.b32 z.b32 0
    some ([p], [frameOfPorts cfg .acc p])
  | .decf window => some ([presentDecf window], [])
  | .decp typ data => some ([presentDecp typ data], [])
  | .word w => some ([presentWord w], [])
  | .feeds bs => some (bs.map fun b => present (.feed b), [])
  | .feedsFrame 0 => none
  | .feedsFrame (n + 1) => (frames[n]?).map fun f => (f.map fun b => present (.feed b), [])

/-- The cycles a program presents, one accepted operation per cycle, `frames` being the frames produced so far. -/
def assemble (cfg : Config) (frames : List (List Byte)) : List AsmLine → Option (List Ports)
  | [] => some []
  | l :: ls =>
    match l.cycles cfg frames with
    | none => none
    | some (cs, new) =>
      match assemble cfg (frames ++ new) ls with
      | none => none
      | some rest => some (cs ++ rest)

/-- A stream fed to the SFD, one FEED per byte in order: the result of each FEED, and the state left. -/
def feedStream (s : State) : List Byte → List Res × State
  | [] => ([], s)
  | b :: bs =>
    match exec (.feed b) s with
    | .next t => (t.res :: (feedStream t bs).1, (feedStream t bs).2)
    | .fault _ => ([], s)
    | .refused _ => ([], s)

end Sys2Proof.Machine
end

