-- ==== Sys2Proof/Safety.lean ====
section
/-! DEFINITION. What counts as a state a run from reset may be in: the SFD invariant of 10_state.md R26, and result codes
that are never produced (30_encoding.md R90). Both are decidable. -/

namespace Sys2Proof.Machine

/-- The invariant of the SFD state (R26): SEEKING implies `len` = 0; ACCUMULATING implies `1 <= len <= 62` and
`buf[0] = START`; `st` is never `0b10` or `0b11`. -/
abbrev SfdInv (s : State) : Prop :=
  (s.st = .seeking → s.len = 0)
    ∧ (s.st = .accumulating → 1 ≤ s.len.toNat ∧ s.len.toNat ≤ 62 ∧ s.buf.bytes.head? = some s.cfg.startByte)
    ∧ s.st ≠ .complete ∧ s.st ≠ .reserved

/-- The status codes 0x8 to 0xF are "never produced" (R90). -/
def Status.produced : Status → Bool
  | .reserved _ => false
  | _ => true

/-- `res_fail` is "nonzero only for FEED events RESYNC_KEEP, RESYNC_DROP and the defensive CLEARED" (R92), and an error
status comes with no decoded frame. -/
abbrev ResInv (r : Res) : Prop :=
  r.status.produced = true
    ∧ (r.fail ≠ .none → r.event = .resyncKeep ∨ r.event = .resyncDrop ∨ r.event = .cleared)
    ∧ (r.frameOk = true → r.status = .ok ∧ r.consumed = 63)
    ∧ (r.event ≠ .none → r.status = .ok)
    ∧ (r.valid = false → r = Res.zero)

/-- A state of a block that was built and reset (R234). -/
abbrev Safe (s : State) : Prop := s.cfg.wf = true ∧ SfdInv s ∧ ResInv s.res

end Sys2Proof.Machine
end

