-- ==== Sys2Proof/Certificates/Slice0/Obligations.lean ====
section
/-! DEFINITION. The statements about the model, from the numbered rules of spec/. The helpers below spell the rules' own
words out (bytes, fields, conditions) so that a statement does not repeat the definition it is about. `State.cfg` and
`State.cycles` are the model's own fields (log entries 2 and 3); what a statement says of them rests on no rule. `buf` is
the list of the valid bytes, as R23 allows (log entry 1): that it is empty says no more than `len` = 0. -/

namespace Sys2Proof.Claims

open Sys2Proof.Machine

/-- Byte `k` of a pattern, byte 0 the least significant (R9). -/
def octet {n : Nat} (v : BitVec n) (k : Nat) : Byte := v.extractLsb' (8 * k) 8

/-- The model's own fields are as before. -/
def SameInputs (s t : State) : Prop := t.cfg = s.cfg ∧ t.cycles = s.cycles

/-- Everything but `RES` is as before. -/
def OnlyRes (s t : State) : Prop := t.st = s.st ∧ t.buf = s.buf ∧ SameInputs s t

/-- The configuration was built (R7) and an operation is accepted in this cycle (R29). -/
def Accepts (s : State) : Prop := s.cfg.wf = true ∧ s.ports.rst = false ∧ s.ports.opValid = true

/-- The illegal words of R83, with the ordinals registered in the configuration (R82). -/
abbrev Illegal (c : Config) (w : OpWord) : Prop :=
  6 ≤ (w.extractLsb' 12 4).toNat
    ∨ ((w.extractLsb' 12 4 = 0 ∨ w.extractLsb' 12 4 = 2 ∨ w.extractLsb' 12 4 = 4 ∨ w.extractLsb' 12 4 = 5)
        ∧ w.extractLsb' 0 12 ≠ 0)
    ∨ (w.extractLsb' 12 4 = 1 ∧ w.extractLsb' 8 4 ≠ 0)
    ∨ (w.extractLsb' 12 4 = 3
        ∧ (w.extractLsb' 8 4 = 0 ∨ 6 + c.extra.length < (w.extractLsb' 8 4).toNat ∨ w.extractLsb' 0 8 ≠ 0))

/-- Bytes 0 to 60 of a frame (R60, R61, R65). -/
def bodyBytes (c : Config) (fromAddr toAddr : Addr) (typ : Byte) (payload : List Byte) : List Byte :=
  [c.startByte, octet fromAddr 0, octet fromAddr 1, octet toAddr 0, octet toAddr 1, typ] ++ payload
    ++ List.replicate (55 - payload.length) 0

/-- `t` is `s` after an ENCF that built a frame of this type and payload: only `RES` is written, and of it only
`res_valid`, `res_op` and `res_frame0..62` are not zero (R132). -/
def EncodedAs (s t : State) (typ : Byte) (payload : List Byte) : Prop :=
  OnlyRes s t
    ∧ t.res = { Res.zero with valid := true, op := 3, status := .ok, frame := t.res.frame }
    ∧ t.res.frame.toList
        = bodyBytes s.cfg s.ports.encFrom s.ports.encTo typ payload
            ++ [crc8 s.cfg (bodyBytes s.cfg s.ports.encFrom s.ports.encTo typ payload), s.cfg.endByte]

/-- The four bytes of a binary32 field from its bus (R102). -/
def bytes32 (f : Bus) : List Byte := [octet f 0, octet f 1, octet f 2, octet f 3]

/-- The eight bytes of a binary64 field from its bus (R103). -/
def bytes64 (f : Bus) : List Byte :=
  [octet f 0, octet f 1, octet f 2, octet f 3, octet f 4, octet f 5, octet f 6, octet f 7]

/-- A sentinel of a 63-byte sequence is wrong (R139). -/
abbrev BadSentinel (c : Config) (w : List Byte) : Prop := w.getD 0 0 ≠ c.startByte ∨ w.getD 62 0 ≠ c.endByte

/-- The integrity byte of a 63-byte sequence is wrong (R139). -/
abbrev BadIntegrity (c : Config) (w : List Byte) : Prop := crc8 c (w.take 61) ≠ w.getD 61 0

/-- A 63-byte sequence passes `frame_check` (R139). -/
abbrev Passes (c : Config) (w : List Byte) : Prop := ¬BadSentinel c w ∧ ¬BadIntegrity c w

/-- A result record with the fields of the frame `w` (R140). -/
def withFrame (r : Res) (w : List Byte) : Res :=
  { r with
    frameOk := true, fromAddr := w.getD 2 0 ++ w.getD 1 0, toAddr := w.getD 4 0 ++ w.getD 3 0, typ := w.getD 5 0,
    data := Vector.ofFn fun i => w.getD (i.val + 6) 0, integrity := w.getD 61 0, consumed := 63 }

/-- The result of a FEED, but for the frame fields (R160). -/
def feedRecord (e : Event) (f : Fail) : Res :=
  { Res.zero with valid := true, op := 1, status := .ok, event := e, fail := f }

/-- `t` is `s` after a FEED that left SEEKING with nothing buffered. -/
def NowSeeking (s t : State) : Prop :=
  t.st = .seeking ∧ t.len = 0 ∧ t.buf.bytes = [] ∧ SameInputs s t

/-- `t` is `s` after a FEED that left ACCUMULATING with these bytes buffered. -/
def NowHolding (s t : State) (bs : List Byte) : Prop :=
  t.st = .accumulating ∧ t.len.toNat = bs.length ∧ t.buf.bytes = bs ∧ SameInputs s t

/-- The reason recorded for a rejected candidate (R166, R167). -/
def reason (c : Config) (w : List Byte) : Fail := if BadSentinel c w then .invalidFrame else .crcMismatch

/-- A binary32 field read from data bytes `i` to `i + 3` (R102). -/
def field32 (d : Vector Byte 55) (i : Nat) : Bus :=
  (d.toList.getD (i + 3) 0 ++ d.toList.getD (i + 2) 0 ++ d.toList.getD (i + 1) 0 ++ d.toList.getD i 0).setWidth 64

/-- A binary64 field read from data bytes `i` to `i + 7` (R103). -/
def field64 (d : Vector Byte 55) (i : Nat) : Bus :=
  d.toList.getD (i + 7) 0 ++ d.toList.getD (i + 6) 0 ++ d.toList.getD (i + 5) 0 ++ d.toList.getD (i + 4) 0
    ++ d.toList.getD (i + 3) 0 ++ d.toList.getD (i + 2) 0 ++ d.toList.getD (i + 1) 0 ++ d.toList.getD i 0

/-- `t` is `s` after a DECP that returned these fields for this ordinal (R146). -/
def DecodedAs (s t : State) (ord : BitVec 4) (f0 f1 f2 f3 : Bus) : Prop :=
  OnlyRes s t
    ∧ t.res = { Res.zero with
        valid := true, op := 5, status := .ok, var := ord, typ := s.ports.dpType, f0 := f0, f1 := f1, f2 := f2, f3 := f3 }

/-- The ENCF of each variant (R81). -/
def encfOf : Variant → Instr
  | .att => .encfAtt
  | .alt => .encfAlt
  | .gps => .encfGps
  | .ctl => .encfCtl
  | .gyr => .encfGyr
  | .acc => .encfAcc

/-- The pattern of a binary32 field on its bus, the upper half being ignored (R102). -/
def low32 (f : Bus) : Bus := (f.setWidth 32).setWidth 64

/-- The field patterns of a variant on the four buses, 0 for a field it lacks (R104, R105, R150). -/
def patterns : Variant → Ports → List Bus
  | .att, p => [low32 p.encF0, low32 p.encF1, low32 p.encF2, 0]
  | .alt, p => [low32 p.encF0, low32 p.encF1, 0, 0]
  | .gps, p => [p.encF0, p.encF1, low32 p.encF2, 0]
  | .ctl, p => [low32 p.encF0, low32 p.encF1, low32 p.encF2, low32 p.encF3]
  | .gyr, p => [low32 p.encF0, low32 p.encF1, low32 p.encF2, 0]
  | .acc, p => [low32 p.encF0, low32 p.encF1, low32 p.encF2, 0]

/-- A 63-byte frame with bit `k` of byte `n` flipped (R150). -/
def flipBit (w : Vector Byte 63) (n : Fin 63) (k : Fin 8) : Vector Byte 63 :=
  w.set n.val (w[n.val] ^^^ BitVec.twoPow 8 k.val) n.isLt

/-- The operations of the Frame Codec (R130). -/
def codec : List Instr := [.nop, .encfAtt, .encfAlt, .encfGps, .encfCtl, .encfGyr, .encfAcc, .decf, .decp]

/-- The events of a FEED that evaluated `frame_check` (R164 to R167). -/
def isCheck (e : Event) : Bool := e == .emit || e == .resyncKeep || e == .resyncDrop

end Sys2Proof.Claims

open Sys2Proof Sys2Proof.Machine Sys2Proof.Claims

/-! ### The operation word and the cycle -/

/-- R81: the words written out bit by bit from the table (OP, SEL, IMM), each decoding to its operation. -/
def Obligations.TableWordsDecodeToTheirOperations : Prop :=
  decode 0b0000_0000_0000_0000 = .op .nop
    ∧ decode 0b0001_0000_1010_0111 = .op (.feed 0xA7)
    ∧ decode 0b0010_0000_0000_0000 = .op .dreset
    ∧ decode 0b0011_0001_0000_0000 = .op .encfAtt
    ∧ decode 0b0011_0011_0000_0000 = .op .encfGps
    ∧ decode 0b0100_0000_0000_0000 = .op .decf
    ∧ decode 0b0101_0000_0000_0000 = .op .decp
    ∧ decode 0b0001_0001_0000_0000 = .illegal .feedSelector
    ∧ decode 0b0011_0111_0000_0000 = .illegal .encfSelector

/-- R81: decoding the word of an operation gives it back, for every operation and every byte of FEED; the same through
the host's numbering of the word. -/
def Obligations.DecodeOfEncodeIsTheOperation : Prop :=
  ∀ i : Instr, i.wf = true → decode (encode i) = .op i ∧ decodeTableWord 16 (encode i).toNat = some i

/-- R81, R84: a word the decoder accepts is the word of the operation it reads: no word has two meanings, and no bit of
an accepted word is dropped. -/
def Obligations.EncodeOfDecodeIsTheWord : Prop :=
  ∀ (w : OpWord) (i : Instr), decode w = .op i → encode i = w

/-- R29, R11: when an operation is accepted and its word decodes to `i`, the step is `exec i` at that state, after which
the host's next values are at the ports (`nextCycle`: the model's own, log entry 2). -/
def Obligations.StepRunsTheDecodedOperation : Prop :=
  ∀ (s : State) (i : Instr), Accepts s → decode s.ports.opw = .op i → i.wf = true →
    ∃ t, exec i s = .next t ∧ step s = .next t.nextCycle

/-- R83, R149: every illegal word is accepted, reports ILLEGAL_OPERATION with its `OP` field, and changes nothing
else. -/
def Obligations.IllegalWordOnlyReportsIllegalOperation : Prop :=
  ∀ s : State, Accepts s → Illegal s.cfg s.ports.opw →
    ∃ t, step s = .next t ∧ t.st = s.st ∧ t.buf = s.buf ∧ t.cfg = s.cfg
      ∧ t.res = { Res.zero with
          valid := true, op := s.ports.opw.extractLsb' 12 4, status := .illegalOperation }

/-- R201, R202: ILLEGAL_OPERATION is "decided from `opw` alone": an accepted word reports it only if it is one of the
illegal words of R83. -/
def Obligations.OnlyIllegalWordsReportIllegalOperation : Prop :=
  ∀ s t : State, Accepts s → step s = .next t → t.res.status = .illegalOperation → Illegal s.cfg s.ports.opw

/-- R34, R201: every accepted operation completes and leaves its own record in `RES`, with `res_valid` = 1 and its `OP`
field in `res_op`. -/
def Obligations.AcceptedOperationLeavesItsRecord : Prop :=
  ∀ s : State, Accepts s →
    ∃ t, step s = .next t ∧ t.res.valid = true ∧ t.res.op = s.ports.opw.extractLsb' 12 4

/-- R91: `res_event` is 0 for every operation but FEED and DRESET, and nonzero for each of these two. -/
def Obligations.EventIsNonzeroExactlyForSfdOperations : Prop :=
  ∀ s t : State, Accepts s → step s = .next t →
    (t.res.event ≠ .none ↔ s.ports.opw.extractLsb' 8 8 = 0x10 ∨ s.ports.opw = 0x2000)

/-- R37, R231: a cycle with `rst` = 1 gives the reset values whatever else the host presents in it. `buf` has no
defined value and is not represented (log entry 1): no byte is valid. -/
def Obligations.ResetWinsAndGivesTheResetValues : Prop :=
  ∀ s : State, s.cfg.wf = true → s.ports.rst = true →
    ∃ t, step s = .next t ∧ t.st = .seeking ∧ t.len = 0 ∧ t.buf.bytes = [] ∧ t.res = Res.zero
      ∧ t.sfdState = 0 ∧ t.sfdLen = 0 ∧ t.opReady = true ∧ t.cfg = s.cfg

/-- R37: the state the model calls reset, every field of `RES` at 0, and the SFD invariant of R26 in it. Its configuration
is the default one (log entry 3). -/
def Obligations.ResetStateHoldsTheSpecValues : Prop :=
  State.reset.st = .seeking ∧ State.reset.len = 0 ∧ State.reset.res.valid = false ∧ State.reset.res.op = 0
    ∧ State.reset.res.status.code = 0 ∧ State.reset.res.event.code = 0 ∧ State.reset.res.fail.code = 0
    ∧ State.reset.res.frame.toList = List.replicate 63 0 ∧ State.reset.res.data.toList = List.replicate 55 0
    ∧ State.reset.cfg.wf = true ∧ SfdInv State.reset ∧ ResInv State.reset.res

/-- R29, R212: with `rst` = 0 and `op_valid` = 0 nothing happens. -/
def Obligations.IdleCycleHoldsTheState : Prop :=
  ∀ s : State, s.cfg.wf = true → s.ports.rst = false → s.ports.opValid = false →
    ∃ t, step s = .next t ∧ t.st = s.st ∧ t.buf = s.buf ∧ t.res = s.res ∧ t.cfg = s.cfg

/-- R36: no input and no operation writes a parameter. That every step moves to the host's next values is the model's
own convention (log entry 2). -/
def Obligations.EveryStepKeepsTheConfiguration : Prop :=
  ∀ s t : State, step s = .next t → t.cfg = s.cfg ∧ t.cycles = s.cycles.tail

/-- R7, R29, R200: a step runs exactly in a configuration that satisfies every condition of the build-time check, and is
refused in every other. That every step of such a configuration is refused, reset and idle cycles included, is the
model's choice (log entry 8): R7 does not say when. -/
def Obligations.OnlyWellFormedConfigurationsRun : Prop :=
  ∀ s : State,
    ((s.cfg.startByte ≠ s.cfg.endByte
        ∧ ([s.cfg.tags.att, s.cfg.tags.alt, s.cfg.tags.gps, s.cfg.tags.ctl, s.cfg.tags.gyr, s.cfg.tags.acc]
            ++ s.cfg.extra.map (·.tag)).Nodup
        ∧ (∀ v : Variant, width v ≤ 55) ∧ bufCap = frameLen)
      → ∃ t, step s = .next t)
    ∧ (¬(s.cfg.startByte ≠ s.cfg.endByte
        ∧ ([s.cfg.tags.att, s.cfg.tags.alt, s.cfg.tags.gps, s.cfg.tags.ctl, s.cfg.tags.gyr, s.cfg.tags.acc]
            ++ s.cfg.extra.map (·.tag)).Nodup
        ∧ (∀ v : Variant, width v ≤ 55) ∧ bufCap = frameLen)
      → step s = .refused .configIllFormed)

/-! ### The Frame Codec -/

/-- R131: NOP leaves `RES` = `Res0` with `res_valid` = 1. -/
def Obligations.NopClearsTheResult : Prop :=
  ∀ s : State, ∃ t, exec .nop s = .next t ∧ OnlyRes s t
    ∧ t.res = { Res.zero with valid := true, op := 0, status := .ok }

/-- R133, R106: the frame ENCF.ATT builds, byte by byte. -/
def Obligations.EncfAttBuildsTheFrame : Prop :=
  ∀ s : State, ∃ t, exec .encfAtt s = .next t
    ∧ EncodedAs s t s.cfg.tags.att (bytes32 s.ports.encF0 ++ bytes32 s.ports.encF1 ++ bytes32 s.ports.encF2)

/-- R134, R107: the frame ENCF.ALT builds, byte by byte. -/
def Obligations.EncfAltBuildsTheFrame : Prop :=
  ∀ s : State, ∃ t, exec .encfAlt s = .next t
    ∧ EncodedAs s t s.cfg.tags.alt (bytes32 s.ports.encF0 ++ bytes32 s.ports.encF1)

/-- R135, R108: the frame ENCF.GPS builds, byte by byte. -/
def Obligations.EncfGpsBuildsTheFrame : Prop :=
  ∀ s : State, ∃ t, exec .encfGps s = .next t
    ∧ EncodedAs s t s.cfg.tags.gps (bytes64 s.ports.encF0 ++ bytes64 s.ports.encF1 ++ bytes32 s.ports.encF2)

/-- R136, R109: the frame ENCF.CTL builds, byte by byte. -/
def Obligations.EncfCtlBuildsTheFrame : Prop :=
  ∀ s : State, ∃ t, exec .encfCtl s = .next t
    ∧ EncodedAs s t s.cfg.tags.ctl
        (bytes32 s.ports.encF0 ++ bytes32 s.ports.encF1 ++ bytes32 s.ports.encF2 ++ bytes32 s.ports.encF3)

/-- R137, R110: the frame ENCF.GYR builds, byte by byte. -/
def Obligations.EncfGyrBuildsTheFrame : Prop :=
  ∀ s : State, ∃ t, exec .encfGyr s = .next t
    ∧ EncodedAs s t s.cfg.tags.gyr (bytes32 s.ports.encF0 ++ bytes32 s.ports.encF1 ++ bytes32 s.ports.encF2)

/-- R138, R111: the frame ENCF.ACC builds, byte by byte. -/
def Obligations.EncfAccBuildsTheFrame : Prop :=
  ∀ s : State, ∃ t, exec .encfAcc s = .next t
    ∧ EncodedAs s t s.cfg.tags.acc (bytes32 s.ports.encF0 ++ bytes32 s.ports.encF1 ++ bytes32 s.ports.encF2)

/-- R133 to R138: the integrity byte of each rule's own example frame, in the default configuration. -/
def Obligations.ExampleFramesHaveTheSpecIntegrityBytes : Prop :=
  (buildFrame Config.default 100 200 0x01 (marshal .att [0x3F8CCCCD, 0x40000000, 0x40400000, 0])).drop 61 = [0xB0, 0xAA]
    ∧ (buildFrame Config.default 1 2 0x02 (marshal .alt [0x42C90000, 0xC0100000, 0, 0])).drop 61 = [0x19, 0xAA]
    ∧ (buildFrame Config.default 102 202 0x03
        (marshal .gps [0x40440FCD35A85879, 0xC052BF35A858793E, 0x440DF8F6, 0])).drop 61 = [0x3C, 0xAA]
    ∧ (buildFrame Config.default 0xFFFF 0 0x04
        (marshal .ctl [0, 0x80000000, 0x3F800000, 0x3F000000])).drop 61 = [0x88, 0xAA]
    ∧ (buildFrame Config.default 0x1234 0xABCD 0x05
        (marshal .gyr [0x7FC00001, 0x7F800000, 0xBFC00000, 0])).drop 61 = [0x52, 0xAA]
    ∧ (buildFrame Config.default 0 0 0x06 (marshal .acc [0, 0, 0x411CF5C3, 0])).drop 61 = [0xE7, 0xAA]

/-- R119: an encoding that does not fit is PAYLOAD_TOO_LARGE before anything is copied into a frame; in no
configuration does one of the six variants fail this way. That an extra variant's encoding never fits is the model's
reading of R6 (log entry 4). -/
def Obligations.OversizedPayloadIsRejectedWithoutAFrame : Prop :=
  (∀ (s : State) (e : ExtraVariant) (n : Fin 9), Accepts s → s.cfg.extra[n.val]? = some e →
      s.ports.opw = 0x3000 + BitVec.ofNat 16 ((n.val + 7) * 256) →
      ∃ t, step s = .next t ∧ t.st = s.st ∧ t.buf = s.buf
        ∧ t.res = { Res.zero with valid := true, op := 3, status := .payloadTooLarge })
    ∧ ∀ (s : State) (v : Variant), ∃ t, exec (encfOf v) s = .next t ∧ t.res.status = .ok

/-- R102, R104: an ENCF reads nothing of a bus but the patterns of the variant's own fields: the upper half of a
binary32 field's bus and the buses beyond the fields are ignored. -/
def Obligations.EncfReadsOnlyTheFieldPatterns : Prop :=
  ∀ (s u t w : State) (v : Variant), s.cfg = u.cfg → s.ports.encFrom = u.ports.encFrom →
    s.ports.encTo = u.ports.encTo → patterns v s.ports = patterns v u.ports →
    exec (encfOf v) s = .next t → exec (encfOf v) u = .next w → t.res = w.res

/-- R142, R143, R144: DECF fails with each of its three statuses exactly under its rule's condition, and a failing DECF
leaves every other field of the result 0. -/
def Obligations.DecfReportsEachFailureExactly : Prop :=
  ∀ s : State, ∃ t, exec .decf s = .next t ∧ OnlyRes s t
    ∧ (t.res.status = .frameTooShort ↔ s.ports.winLen.toNat < 63)
    ∧ (t.res.status = .invalidFrame ↔ 63 ≤ s.ports.winLen.toNat ∧ BadSentinel s.cfg s.ports.win.toList)
    ∧ (t.res.status = .crcMismatch ↔ 63 ≤ s.ports.winLen.toNat ∧ ¬BadSentinel s.cfg s.ports.win.toList
        ∧ BadIntegrity s.cfg s.ports.win.toList)
    ∧ (t.res.status ≠ .ok → t.res = { Res.zero with valid := true, op := 4, status := t.res.status })

/-- R145: a window of at least 63 bytes whose first 63 pass the frame check is decoded into `RES`. -/
def Obligations.DecfReturnsTheFrame : Prop :=
  ∀ s : State, 63 ≤ s.ports.winLen.toNat → Passes s.cfg s.ports.win.toList →
    ∃ t, exec .decf s = .next t ∧ OnlyRes s t
      ∧ t.res = withFrame { Res.zero with valid := true, op := 4, status := .ok } s.ports.win.toList

/-- R147: DECP fails with UNKNOWN_TYPE exactly when `dp_type` is no registered tag; by default, exactly for 0x00 and
0x07 to 0xFF. -/
def Obligations.DecpReportsUnknownTypeExactly : Prop :=
  ∀ s : State, ∃ t, exec .decp s = .next t ∧ OnlyRes s t
    ∧ (t.res.status = .unknownType ↔
        s.ports.dpType ∉ [s.cfg.tags.att, s.cfg.tags.alt, s.cfg.tags.gps, s.cfg.tags.ctl, s.cfg.tags.gyr, s.cfg.tags.acc]
          ++ s.cfg.extra.map (·.tag))
    ∧ (s.cfg = Config.default →
        (t.res.status = .unknownType ↔ s.ports.dpType = 0 ∨ 7 ≤ s.ports.dpType.toNat))
    ∧ (t.res.status = .unknownType → t.res = { Res.zero with valid := true, op := 5, status := .unknownType })

/-- R148: DECP fails with MALFORMED_PAYLOAD exactly when the variant of `dp_type` is wider than the slot, which only an
extra variant is (log entry 4), and never in the default configuration. -/
def Obligations.DecpReportsMalformedPayloadExactly : Prop :=
  ∀ s : State, s.cfg.wf = true → ∃ t, exec .decp s = .next t ∧ OnlyRes s t
    ∧ (t.res.status = .malformedPayload ↔ s.ports.dpType ∈ s.cfg.extra.map (·.tag))
    ∧ (s.cfg = Config.default → t.res.status ≠ .malformedPayload)
    ∧ (t.res.status = .malformedPayload →
        t.res = { Res.zero with valid := true, op := 5, status := .malformedPayload })

/-- R112, R116, R117: DECP of the three variants with three binary32 fields. -/
def Obligations.DecpReturnsThreeBinary32Fields : Prop :=
  ∀ s : State, s.cfg.wf = true →
    (s.ports.dpType = s.cfg.tags.att → ∃ t, exec .decp s = .next t
      ∧ DecodedAs s t 1 (field32 s.ports.dpData 0) (field32 s.ports.dpData 4) (field32 s.ports.dpData 8) 0)
    ∧ (s.ports.dpType = s.cfg.tags.gyr → ∃ t, exec .decp s = .next t
      ∧ DecodedAs s t 5 (field32 s.ports.dpData 0) (field32 s.ports.dpData 4) (field32 s.ports.dpData 8) 0)
    ∧ (s.ports.dpType = s.cfg.tags.acc → ∃ t, exec .decp s = .next t
      ∧ DecodedAs s t 6 (field32 s.ports.dpData 0) (field32 s.ports.dpData 4) (field32 s.ports.dpData 8) 0)

/-- R113: DECP of an Altitude payload. -/
def Obligations.DecpReturnsAltitudeFields : Prop :=
  ∀ s : State, s.cfg.wf = true → s.ports.dpType = s.cfg.tags.alt →
    ∃ t, exec .decp s = .next t
      ∧ DecodedAs s t 2 (field32 s.ports.dpData 0) (field32 s.ports.dpData 4) 0 0

/-- R114: DECP of a Gps payload. -/
def Obligations.DecpReturnsGpsFields : Prop :=
  ∀ s : State, s.cfg.wf = true → s.ports.dpType = s.cfg.tags.gps →
    ∃ t, exec .decp s = .next t
      ∧ DecodedAs s t 3 (field64 s.ports.dpData 0) (field64 s.ports.dpData 8) (field32 s.ports.dpData 16) 0

/-- R115: DECP of a ControlInput payload. -/
def Obligations.DecpReturnsControlInputFields : Prop :=
  ∀ s : State, s.cfg.wf = true → s.ports.dpType = s.cfg.tags.ctl →
    ∃ t, exec .decp s = .next t
      ∧ DecodedAs s t 4 (field32 s.ports.dpData 0) (field32 s.ports.dpData 4) (field32 s.ports.dpData 8)
          (field32 s.ports.dpData 12)

/-- R105: DECP "reads exactly its known fixed width and ignores the rest": two data slots that agree on the first `W(v)`
bytes give the same result. -/
def Obligations.DecpIgnoresThePadding : Prop :=
  ∀ (s u t w : State) (v : Variant), s.cfg.wf = true → s.cfg = u.cfg → s.ports.dpType = tag s.cfg v →
    u.ports.dpType = s.ports.dpType → s.ports.dpData.toList.take (width v) = u.ports.dpData.toList.take (width v) →
    exec .decp s = .next t → exec .decp u = .next w → t.res = w.res

/-- R130: no codec operation and no illegal word reads or writes the SFD state, and each writes only `RES`: its result
is the same whatever `st`, `buf` (so `len`) and `RES` held. -/
def Obligations.CodecOperationsTouchOnlyTheResult : Prop :=
  (∀ (s : State) (i : Instr), i ∈ codec → ∃ r : Res, ∀ (x : SfdTag) (b : Buf) (q : Res),
      exec i { s with st := x, buf := b, res := q } = .next { s with st := x, buf := b, res := r })
    ∧ (∀ s : State, Accepts s → Illegal s.cfg s.ports.opw → ∃ r : Res, ∀ (x : SfdTag) (b : Buf) (q : Res),
      ∃ t, step { s with st := x, buf := b, res := q } = .next t ∧ t.st = x ∧ t.buf = b ∧ t.res = r)

/-- R51: a codec operation between two FEEDs does not change what the FEEDs do: the next FEED gives the same state and
result as without it. -/
def Obligations.CodecOperationBetweenFeedsChangesNothing : Prop :=
  ∀ (s t u : State) (i : Instr) (b : Byte), i ∈ codec → exec i s = .next t → exec (.feed b) s = .next u →
    exec (.feed b) t = .next u

/-- R50: codec operations are idempotent: doing one again on the same operands leaves the state the first one left. What
R50 says of DRESET is not stated (log entry 9). -/
def Obligations.CodecOperationsAreIdempotent : Prop :=
  ∀ (s t : State) (i : Instr), i ∈ codec → exec i s = .next t → exec i t = .next t

/-! ### The integrity function -/

/-- R69: the check value, and `CRC8` of any sequence of zero bytes, with the default parameters. -/
def Obligations.CrcCheckValueAndZeros : Prop :=
  crc8 Config.default [0x31, 0x32, 0x33, 0x34, 0x35, 0x36, 0x37, 0x38, 0x39] = 0xF4
    ∧ ∀ n : Nat, crc8 Config.default (List.replicate n 0) = 0

/-- 95_test_vectors.md section 2.1: "`CRC8` of `s ++ [CRC8(s)]` is 0x00 for every `s`, since `CRC_XOROUT` = 0", for
every polynomial and initial value. -/
def Obligations.CrcOfSequenceAndItsCrcIsZero : Prop :=
  ∀ (c : Config) (bs : List Byte), c.crcXorout = 0 → crc8 c (bs ++ [crc8 c bs]) = 0

/-- R150: every frame an ENCF builds passes the frame check, in every configuration, sentinel bytes in its fields
included. -/
def Obligations.EncodedFramesPassTheCheck : Prop :=
  ∀ (s : State) (v : Variant), ∃ t, exec (encfOf v) s = .next t ∧ Passes s.cfg t.res.frame.toList

/-- R150, the round trip: for every variant, every field pattern and every `from` and `to`, DECF of the 63 bytes ENCF
built returns them, and DECP of the decoded type and data returns the field patterns. -/
def Obligations.EncodeDecodeRoundTrip : Prop :=
  ∀ (s t u x : State) (v : Variant), s.cfg.wf = true → exec (encfOf v) s = .next t →
    u.cfg = s.cfg → u.ports.win = t.res.frame → 63 ≤ u.ports.winLen.toNat →
    ∃ d, exec .decf u = .next d ∧ d.res.status = .ok ∧ d.res.frameOk = true ∧ d.res.consumed = 63
      ∧ d.res.fromAddr = s.ports.encFrom ∧ d.res.toAddr = s.ports.encTo ∧ d.res.typ = tag s.cfg v
      ∧ (x.cfg = s.cfg → x.ports.dpType = d.res.typ → x.ports.dpData = d.res.data →
          ∃ y, exec .decp x = .next y ∧ y.res.status = .ok ∧ y.res.var = ordinal v
            ∧ [y.res.f0, y.res.f1, y.res.f2, y.res.f3] = patterns v s.ports)

/-- R150, corruption rejection: flipping any one bit of an ENCF frame makes DECF return CRC_MISMATCH (bytes 1 to 61) or
INVALID_FRAME (bytes 0 and 62). The spec's premise on the CRC is that its generator has more than one term, which is
`CRC_POLY` ≠ 0; the default has it. -/
def Obligations.SingleBitFlipIsRejectedByDecf : Prop :=
  ∀ (s t u : State) (v : Variant) (n : Fin 63) (k : Fin 8), s.cfg.crcPoly ≠ 0 → exec (encfOf v) s = .next t →
    u.cfg = s.cfg → u.ports.win = flipBit t.res.frame n k → 63 ≤ u.ports.winLen.toNat →
    ∃ d, exec .decf u = .next d
      ∧ d.res.status = (if n.val = 0 ∨ n.val = 62 then .invalidFrame else .crcMismatch)

/-! ### The Streaming Frame Decoder -/

/-- R160: a FEED never waits and never refuses a byte, its status is always OK, and it writes nothing outside the SFD
and `RES`. -/
def Obligations.FeedAlwaysCompletesWithStatusOk : Prop :=
  ∀ (s : State) (b : Byte), ∃ t, exec (.feed b) s = .next t ∧ SameInputs s t
    ∧ t.res.valid = true ∧ t.res.op = 1 ∧ t.res.status = .ok ∧ t.res.frame = Vector.replicate 63 0
    ∧ t.res.var = 0 ∧ t.res.f0 = 0 ∧ t.res.f1 = 0 ∧ t.res.f2 = 0 ∧ t.res.f3 = 0

/-- R161: FEED branch DEFENSIVE discards the buffer and the byte, even a `START`. -/
def Obligations.FeedInACorruptStateClears : Prop :=
  ∀ (s : State) (b : Byte),
    (s.st = .complete ∨ s.st = .reserved
      ∨ (s.st = .accumulating ∧ (s.len.toNat = 0 ∨ 63 ≤ s.len.toNat))) →
    ∃ t, exec (.feed b) s = .next t ∧ NowSeeking s t ∧ t.res = feedRecord .cleared .overflow

/-- R162: FEED in SEEKING starts a candidate at `START` and discards every other byte, also with a stray `len`. -/
def Obligations.FeedInSeekingLooksForStart : Prop :=
  ∀ (s : State) (b : Byte), s.st = .seeking →
    ∃ t, exec (.feed b) s = .next t
      ∧ (b = s.cfg.startByte → NowHolding s t [b] ∧ t.res = feedRecord .start .none)
      ∧ (b ≠ s.cfg.startByte → NowSeeking s t ∧ t.res = feedRecord .discard .none)

/-- R163: FEED in ACCUMULATING with `1 <= len <= 61` appends the byte, whatever it is. -/
def Obligations.FeedAppendsBeforeTheBufferIsFull : Prop :=
  ∀ (s : State) (b : Byte), s.st = .accumulating → 1 ≤ s.len.toNat → s.len.toNat ≤ 61 →
    ∃ t, exec (.feed b) s = .next t ∧ NowHolding s t (s.buf.bytes ++ [b]) ∧ t.len.toNat = s.len.toNat + 1
      ∧ t.res = feedRecord .append .none

/-- R165: the byte that completes a valid candidate emits the frame and returns to SEEKING; the type is not checked. -/
def Obligations.FeedEmitsAValidCandidate : Prop :=
  ∀ (s : State) (b : Byte), s.st = .accumulating → s.len.toNat = 62 → Passes s.cfg (s.buf.bytes ++ [b]) →
    ∃ t, exec (.feed b) s = .next t ∧ NowSeeking s t
      ∧ t.res = withFrame (feedRecord .emit .none) (s.buf.bytes ++ [b])

/-- R166: a rejected candidate with a later `START` keeps the bytes from the first such `START`, in the same FEED; `k`
is the smallest index of a `START` in `c[1..63)`. -/
def Obligations.FeedKeepsFromTheNextStart : Prop :=
  ∀ (s : State) (b : Byte) (k : Nat), s.st = .accumulating → s.len.toNat = 62 →
    ¬Passes s.cfg (s.buf.bytes ++ [b]) → k ≤ 61 → (s.buf.bytes ++ [b]).getD (k + 1) 0 = s.cfg.startByte →
    (∀ j < k, (s.buf.bytes ++ [b]).getD (j + 1) 0 ≠ s.cfg.startByte) →
    ∃ t, exec (.feed b) s = .next t ∧ NowHolding s t ((s.buf.bytes ++ [b]).drop (k + 1)) ∧ t.len.toNat = 62 - k
      ∧ t.res = feedRecord .resyncKeep (reason s.cfg (s.buf.bytes ++ [b]))

/-- R167: a rejected candidate without a later `START` is dropped whole. -/
def Obligations.FeedDropsWithoutALaterStart : Prop :=
  ∀ (s : State) (b : Byte), s.st = .accumulating → s.len.toNat = 62 → ¬Passes s.cfg (s.buf.bytes ++ [b]) →
    (∀ j ≤ 61, (s.buf.bytes ++ [b]).getD (j + 1) 0 ≠ s.cfg.startByte) →
    ∃ t, exec (.feed b) s = .next t ∧ NowSeeking s t
      ∧ t.res = feedRecord .resyncDrop (reason s.cfg (s.buf.bytes ++ [b]))

/-- R168: DRESET, from every state. That no byte of `buf` is represented afterwards is the model's choice (log
entry 1). -/
def Obligations.DresetReturnsToSeeking : Prop :=
  ∀ s : State, ∃ t, exec .dreset s = .next t ∧ NowSeeking s t
    ∧ t.res = { Res.zero with valid := true, op := 2, status := .ok, event := .cleared }

/-- R232: DRESET and reset leave the same SFD state and differ only in `RES`. `u` is the state of a cycle with `rst` = 1
of the same configuration. That the two `buf` are equal is the model's representation (log entry 1). -/
def Obligations.DresetAndResetDifferOnlyInTheResult : Prop :=
  ∀ s u : State, u.cfg = s.cfg → u.cfg.wf = true → u.ports.rst = true →
    ∃ t w, exec .dreset s = .next t ∧ step u = .next w ∧ t.st = .seeking ∧ w.st = .seeking
      ∧ t.len = 0 ∧ w.len = 0 ∧ t.buf = w.buf
      ∧ t.res = { w.res with valid := true, op := 2, event := .cleared } ∧ w.res = Res.zero

/-- R169: from any state satisfying R26, every FEED and DRESET leaves a state satisfying it, and branch DEFENSIVE is
never taken. -/
def Obligations.SfdOperationsPreserveTheInvariant : Prop :=
  ∀ s : State, SfdInv s →
    (∀ b : Byte, ∃ t, exec (.feed b) s = .next t ∧ SfdInv t ∧ t.res.fail ≠ .overflow)
    ∧ ∃ t, exec .dreset s = .next t ∧ SfdInv t

/-- R26: every step of the whole machine, whatever the host presents in its cycle, keeps the invariant of the SFD
state. -/
def Obligations.EveryStepKeepsTheSfdInvariant : Prop :=
  ∀ s t : State, SfdInv s → step s = .next t → SfdInv t

/-- R90, R92, R200: every step keeps the promises about `RES`: no reserved status code, `res_fail` only with its three
events, a decoded frame only with status OK and 63 bytes consumed (R140), an SFD event only with status OK, and
`res_valid` = 0 only in `Res0` (R33, R34, R37). -/
def Obligations.EveryStepKeepsTheResultPromises : Prop :=
  ∀ s t : State, ResInv s.res → step s = .next t → ResInv t.res

/-- R27, R173: nothing but FEED, DRESET and reset writes the SFD state; in particular the decoder never leaves
ACCUMULATING on its own. -/
def Obligations.OnlySfdOperationsAndResetChangeTheSfd : Prop :=
  ∀ s t : State, step s = .next t → (t.st ≠ s.st ∨ t.buf ≠ s.buf) →
    s.ports.rst = true
      ∨ (s.ports.opValid = true ∧ (s.ports.opw.extractLsb' 8 8 = 0x10 ∨ s.ports.opw = 0x2000))

/-! ### Streams -/

/-- R165, R238: the 63 bytes of any frame that passes the check, fed from SEEKING, give 62 FEEDs that emit nothing and
then the frame. -/
def Obligations.FeedingAValidFrameEmitsIt : Prop :=
  ∀ (s : State) (w : Vector Byte 63), s.st = .seeking → s.len = 0 → Passes s.cfg w.toList →
    (∀ r ∈ (feedStream s w.toList).1.take 62, r.frameOk = false)
      ∧ (feedStream s w.toList).1.drop 62 = [withFrame (feedRecord .emit .none) w.toList]
      ∧ NowSeeking s (feedStream s w.toList).2

/-- R170: a FEED evaluates the check only when it brings the buffer to 63 bytes, and a stream of `n` bytes from SEEKING
causes at most `n - 62` checks. -/
def Obligations.CandidateChecksAreBounded : Prop :=
  (∀ (s : State) (b : Byte), ∃ t, exec (.feed b) s = .next t
      ∧ (isCheck t.res.event = true ↔ s.st = .accumulating ∧ s.len.toNat = 62))
    ∧ ∀ (s : State) (bs : List Byte), s.st = .seeking → s.len = 0 →
      ((feedStream s bs).1.filter fun r => isCheck r.event).length ≤ bs.length - 62

/-- R171, resynchronisation: `J1 ++ F ++ J2` fed from SEEKING with `len` = 0 emits exactly one frame, `parse(F)`, on the
FEED of `F[62]`, under the rule's two junk conditions. -/
def Obligations.ResynchronisationEmitsExactlyTheFrame : Prop :=
  ∀ (s : State) (j1 j2 : List Byte) (f : Vector Byte 63), s.st = .seeking → s.len = 0 → Passes s.cfg f.toList →
    (∀ p < j1.length, (j1 ++ f.toList ++ j2)[p]? = some s.cfg.startByte →
      ¬Passes s.cfg (((j1 ++ f.toList ++ j2).drop p).take 63)) →
    (∀ p, j1.length + 63 ≤ p → p + 63 ≤ (j1 ++ f.toList ++ j2).length →
      (j1 ++ f.toList ++ j2)[p]? = some s.cfg.startByte →
      ¬Passes s.cfg (((j1 ++ f.toList ++ j2).drop p).take 63)) →
    (feedStream s (j1 ++ f.toList ++ j2)).1.length = j1.length + 63 + j2.length
      ∧ (∀ i r, (feedStream s (j1 ++ f.toList ++ j2)).1[i]? = some r → (r.frameOk = true ↔ i = j1.length + 62))
      ∧ (feedStream s (j1 ++ f.toList ++ j2)).1[j1.length + 62]?
          = some (withFrame (feedRecord .emit .none) f.toList)

/-- R172, corruption rejection in the stream: an ENCF frame with one bit flipped, fed from SEEKING, is never emitted;
its candidate fails CRC_MISMATCH (bytes 1 to 61) or INVALID_FRAME (byte 62), and with byte 0 flipped no candidate starts
at it. The premise on `CRC_POLY` is that of R150. -/
def Obligations.SingleBitFlipIsNeverEmitted : Prop :=
  ∀ (s t : State) (v : Variant) (n : Fin 63) (k : Fin 8), s.cfg.crcPoly ≠ 0 → s.st = .seeking → s.len = 0 →
    exec (encfOf v) s = .next t →
    (∀ r ∈ (feedStream t (flipBit t.res.frame n k).toList).1, r.frameOk = false)
      ∧ (1 ≤ n.val → n.val ≤ 61 →
          ((feedStream t (flipBit t.res.frame n k).toList).1.getLast?.map (·.fail)) = some .crcMismatch)
      ∧ (n.val = 62 →
          ((feedStream t (flipBit t.res.frame n k).toList).1.getLast?.map (·.fail)) = some .invalidFrame)
      ∧ (n.val = 0 →
          ((feedStream t (flipBit t.res.frame n k).toList).1.head?.map (·.event)) = some .discard)
end

