-- ==== Sys2Proof/Laws/Bytes.lean ====
section
/-! SUPPORT. Byte order, fixed-size byte sequences, and the lengths of frames: one lemma for each helper. -/

namespace Sys2Proof.Machine

theorem bytesVec_toList {n : Nat} {l : List Byte} (h : l.length = n) : (bytesVec n l).toList = l := by
  subst h
  simp [bytesVec, Vector.toList]

theorem bytesVec_getElem {n : Nat} {l : List Byte} (h : l.length = n) (i : Nat) (hi : i < n) :
    (bytesVec n l)[i] = l[i]'(h ▸ hi) := by
  subst h
  simp [bytesVec]

theorem toList_bytesVec {n : Nat} (v : Vector Byte n) : bytesVec n v.toList = v := by
  apply Vector.toList_inj.mp
  rw [bytesVec_toList (by simp)]

theorem Buf.ofList_bytes {l : List Byte} (h : l.length ≤ bufCap) : (Buf.ofList l).bytes = l := by
  simpa [Buf.ofList] using h

/-- `len` is the number of valid bytes: no wrap (R25). -/
theorem len_toNat (s : State) : s.len.toNat = s.buf.bytes.length := by
  have h : s.buf.bytes.length ≤ 63 := s.buf.le_cap
  simp only [State.len, BitVec.toNat_ofNat]
  exact Nat.mod_eq_of_lt (by omega)

@[simp] theorem Buf.empty_bytes : Buf.empty.bytes = [] := rfl

@[simp] theorem bytesLe16_length (v : BitVec 16) : (bytesLe16 v).length = 2 := rfl
@[simp] theorem bytesLe32_length (v : BitVec 32) : (bytesLe32 v).length = 4 := rfl
@[simp] theorem bytesLe64_length (v : BitVec 64) : (bytesLe64 v).length = 8 := rfl

/-- `LE16` inverts `bytes_le_16` (R9). -/
theorem le16_extract (v : BitVec 16) : le16 (v.extractLsb' 0 8) (v.extractLsb' 8 8) = v := by
  unfold le16
  rw [BitVec.extractLsb'_append_extractLsb'_eq_extractLsb' (by omega)]
  exact BitVec.extractLsb'_eq_self

/-- `LE32` inverts `bytes_le_32` (R9). -/
theorem le32_bytesLe32 (v : BitVec 32) : le32 (bytesLe32 v) = v := by
  simp only [le32, bytesLe32, List.getD_cons_zero, List.getD_cons_succ]
  repeat rw [BitVec.extractLsb'_append_extractLsb'_eq_extractLsb' (by omega)]
  exact BitVec.extractLsb'_eq_self

/-- `LE64` inverts `bytes_le_64` (R9). -/
theorem le64_bytesLe64 (v : BitVec 64) : le64 (bytesLe64 v) = v := by
  simp only [le64, bytesLe64, List.getD_cons_zero, List.getD_cons_succ]
  repeat rw [BitVec.extractLsb'_append_extractLsb'_eq_extractLsb' (by omega)]
  exact BitVec.extractLsb'_eq_self

end Sys2Proof.Machine
end

