-- ==== Sys2Proof/Laws/Decode.lean ====
section
/-! SUPPORT. The mask and match of a row, as conditions on the word's fields (30_encoding.md R80, R81). -/

namespace Sys2Proof

/-- A row with the full mask hits its own word only. -/
theorem hits_full_mask (p w : OpWord) : (Row.hits ⟨p, 0xFFFF⟩ w = true) ↔ w = p := by
  have h : w &&& 0xFFFF = w := by
    rw [show (0xFFFF : OpWord) = BitVec.allOnes 16 by decide, BitVec.and_allOnes]
  simp only [Row.hits, beq_iff_eq]
  rw [h]

/-- The decoder reads an operation only from a word its row hits, and FEED with the word's own `IMM`. -/
theorem decode_op {w : OpWord} {i : Instr} (h : decode w = .op i) : i ∈ candidates w ∧ (rowOf i).hits w = true := by
  unfold decode at h
  split at h
  · rename_i j hj
    cases h
    exact ⟨List.mem_of_find?_eq_some hj, by simpa using List.find?_some hj⟩
  · cases h

/-- The decoder rejects a word exactly when no row hits it (R83). -/
theorem decode_illegal_iff (w : OpWord) :
    (∃ why, decode w = .illegal why) ↔ ∀ i ∈ candidates w, (rowOf i).hits w = false := by
  unfold decode
  split
  · rename_i j hj
    have hm := List.mem_of_find?_eq_some hj
    have ht : (rowOf j).hits w = true := by simpa using List.find?_some hj
    constructor
    · rintro ⟨_, h⟩
      cases h
    · intro h
      rw [h j hm] at ht
      cases ht
  · rename_i hn
    exact ⟨fun _ i hi => by simpa using List.find?_eq_none.mp hn i hi, fun _ => ⟨_, rfl⟩⟩

/-- The rows do not overlap (R81): no word is hit by two rows. -/
theorem rows_disjoint : List.Pairwise (fun r q : Row => r.pattern &&& q.mask &&& r.mask ≠ q.pattern &&& r.mask)
    ((candidates 0).map rowOf) := by decide

end Sys2Proof
end

