-- ==== Sys2Proof/Laws/Registry.lean ====
section
/-! SUPPORT. The Payload Registry: widths, the serialized form of each variant, and the tag lookup. -/

namespace Sys2Proof.Machine

@[simp] theorem Format.image_length (fmt : Format) (f : Bus) : (fmt.image f).length = fmt.width := by
  cases fmt <;> rfl

/-- Every variant fits the data slot (R71). -/
theorem width_le_dataLen (v : Variant) : width v ≤ dataLen := by cases v <;> decide

/-- The serialized form has the variant's width (R104). -/
theorem marshal_length (v : Variant) (p : Ports) : (marshal v p.buses).length = width v := by
  cases v <;> rfl

theorem marshal_length_le (v : Variant) (p : Ports) : (marshal v p.buses).length ≤ dataLen := by
  rw [marshal_length]
  exact width_le_dataLen v

/-- An extra variant never fits the data slot (R119). -/
theorem dataLen_lt_extraMarshal (e : ExtraVariant) : dataLen < (extraMarshal e).length := by
  simp [extraMarshal, extraWidth]
  omega

theorem pad55_length {p : List Byte} (h : p.length ≤ dataLen) : (pad55 p).length = dataLen := by
  simp [pad55]
  omega

/-- R106, R110 and R111: three binary32 fields. -/
theorem marshal_three (v : Variant) (h : fields v = [.binary32, .binary32, .binary32]) (p : Ports) :
    marshal v p.buses = bytesLe32 (p.encF0.extractLsb' 0 32) ++ (bytesLe32 (p.encF1.extractLsb' 0 32)
      ++ (bytesLe32 (p.encF2.extractLsb' 0 32) ++ [])) := by
  simp only [marshal, h]
  rfl

/-- The extra variants' tags and the six tags, in registration order (R82). -/
theorem registered_tags (c : Config) : (registered c).map (·.tag c)
    = [c.tags.att, c.tags.alt, c.tags.gps, c.tags.ctl, c.tags.gyr, c.tags.acc] ++ c.extra.map (·.tag) := by
  simp [registered, allVariants, Registered.tag, Machine.tag, Function.comp_def]

theorem mem_registered (c : Config) (v : Variant) : Registered.core v ∈ registered c := by
  cases v <;> simp [registered, allVariants]

/-- With distinct tags, the lookup of a registered variant's tag finds that variant (R118). -/
theorem find_of_nodup {α β : Type} [DecidableEq β] (f : α → β) (l : List α) (h : (l.map f).Nodup) (a : α) (ha : a ∈ l) :
    l.find? (fun r => f r == f a) = some a := by
  induction l with
  | nil => cases ha
  | cons x xs ih =>
    simp only [List.map_cons, List.nodup_cons] at h
    rcases List.mem_cons.mp ha with rfl | hx
    · simp
    · have hne : f x ≠ f a := fun e => h.1 (e ▸ List.mem_map_of_mem hx)
      simp [hne, ih h.2 hx]

theorem wf_tags {c : Config} (h : c.wf = true) : ((registered c).map (·.tag c)).Nodup := by
  simp only [Config.wf, Bool.and_eq_true, decide_eq_true_eq] at h
  exact h.1.1.2

theorem wf_sentinels {c : Config} (h : c.wf = true) : c.startByte ≠ c.endByte := by
  simp only [Config.wf, Bool.and_eq_true, decide_eq_true_eq] at h
  exact h.1.1.1

theorem lookup_tag {c : Config} (h : c.wf = true) (v : Variant) : lookup c (tag c v) = some (.core v) :=
  find_of_nodup (fun r : Registered => r.tag c) (registered c) (wf_tags h) (.core v) (mem_registered c v)

end Sys2Proof.Machine
end

