-- ==== Sys2Proof/Laws/State.lean ====
section
/-! SUPPORT. One lemma per field per update of the state and of a result record, so that no proof unfolds a record update. -/

namespace Sys2Proof.Machine

@[simp] theorem State.withRes_st (s : State) (r : Res) : (s.withRes r).st = s.st := rfl
@[simp] theorem State.withRes_buf (s : State) (r : Res) : (s.withRes r).buf = s.buf := rfl
@[simp] theorem State.withRes_res (s : State) (r : Res) : (s.withRes r).res = r := rfl
@[simp] theorem State.withRes_cfg (s : State) (r : Res) : (s.withRes r).cfg = s.cfg := rfl
@[simp] theorem State.withRes_cycles (s : State) (r : Res) : (s.withRes r).cycles = s.cycles := rfl
@[simp] theorem State.withRes_ports (s : State) (r : Res) : (s.withRes r).ports = s.ports := rfl
@[simp] theorem State.withRes_len (s : State) (r : Res) : (s.withRes r).len = s.len := rfl

@[simp] theorem State.withSfd_st (s : State) (t : SfdTag) (b : Buf) : (s.withSfd t b).st = t := rfl
@[simp] theorem State.withSfd_buf (s : State) (t : SfdTag) (b : Buf) : (s.withSfd t b).buf = b := rfl
@[simp] theorem State.withSfd_res (s : State) (t : SfdTag) (b : Buf) : (s.withSfd t b).res = s.res := rfl
@[simp] theorem State.withSfd_cfg (s : State) (t : SfdTag) (b : Buf) : (s.withSfd t b).cfg = s.cfg := rfl
@[simp] theorem State.withSfd_cycles (s : State) (t : SfdTag) (b : Buf) : (s.withSfd t b).cycles = s.cycles := rfl
@[simp] theorem State.withSfd_ports (s : State) (t : SfdTag) (b : Buf) : (s.withSfd t b).ports = s.ports := rfl

@[simp] theorem State.seek_st (s : State) : s.seek.st = .seeking := rfl
@[simp] theorem State.seek_buf (s : State) : s.seek.buf = Buf.empty := rfl
@[simp] theorem State.seek_res (s : State) : s.seek.res = s.res := rfl
@[simp] theorem State.seek_cfg (s : State) : s.seek.cfg = s.cfg := rfl
@[simp] theorem State.seek_cycles (s : State) : s.seek.cycles = s.cycles := rfl
@[simp] theorem State.seek_ports (s : State) : s.seek.ports = s.ports := rfl

@[simp] theorem State.resetBlock_st (s : State) : s.resetBlock.st = .seeking := rfl
@[simp] theorem State.resetBlock_buf (s : State) : s.resetBlock.buf = Buf.empty := rfl
@[simp] theorem State.resetBlock_res (s : State) : s.resetBlock.res = Res.zero := rfl
@[simp] theorem State.resetBlock_cfg (s : State) : s.resetBlock.cfg = s.cfg := rfl
@[simp] theorem State.resetBlock_cycles (s : State) : s.resetBlock.cycles = s.cycles := rfl
@[simp] theorem State.resetBlock_ports (s : State) : s.resetBlock.ports = s.ports := rfl

@[simp] theorem State.nextCycle_st (s : State) : s.nextCycle.st = s.st := rfl
@[simp] theorem State.nextCycle_buf (s : State) : s.nextCycle.buf = s.buf := rfl
@[simp] theorem State.nextCycle_res (s : State) : s.nextCycle.res = s.res := rfl
@[simp] theorem State.nextCycle_cfg (s : State) : s.nextCycle.cfg = s.cfg := rfl
@[simp] theorem State.nextCycle_cycles (s : State) : s.nextCycle.cycles = s.cycles.tail := rfl
@[simp] theorem State.nextCycle_len (s : State) : s.nextCycle.len = s.len := rfl

@[simp] theorem Res.zero_valid : Res.zero.valid = false := rfl
@[simp] theorem Res.zero_op : Res.zero.op = 0 := rfl
@[simp] theorem Res.zero_status : Res.zero.status = .ok := rfl
@[simp] theorem Res.zero_frameOk : Res.zero.frameOk = false := rfl
@[simp] theorem Res.zero_event : Res.zero.event = .none := rfl
@[simp] theorem Res.zero_fail : Res.zero.fail = .none := rfl
@[simp] theorem Res.zero_fromAddr : Res.zero.fromAddr = 0 := rfl
@[simp] theorem Res.zero_toAddr : Res.zero.toAddr = 0 := rfl
@[simp] theorem Res.zero_typ : Res.zero.typ = 0 := rfl
@[simp] theorem Res.zero_data : Res.zero.data = Vector.replicate 55 0 := rfl
@[simp] theorem Res.zero_integrity : Res.zero.integrity = 0 := rfl
@[simp] theorem Res.zero_consumed : Res.zero.consumed = 0 := rfl
@[simp] theorem Res.zero_frame : Res.zero.frame = Vector.replicate 63 0 := rfl
@[simp] theorem Res.zero_var : Res.zero.var = 0 := rfl
@[simp] theorem Res.zero_f0 : Res.zero.f0 = 0 := rfl
@[simp] theorem Res.zero_f1 : Res.zero.f1 = 0 := rfl
@[simp] theorem Res.zero_f2 : Res.zero.f2 = 0 := rfl
@[simp] theorem Res.zero_f3 : Res.zero.f3 = 0 := rfl

@[simp] theorem result_valid (op : BitVec 4) (st : Status) : (result op st).valid = true := rfl
@[simp] theorem result_op (op : BitVec 4) (st : Status) : (result op st).op = op := rfl
@[simp] theorem result_status (op : BitVec 4) (st : Status) : (result op st).status = st := rfl
@[simp] theorem result_frameOk (op : BitVec 4) (st : Status) : (result op st).frameOk = false := rfl
@[simp] theorem result_event (op : BitVec 4) (st : Status) : (result op st).event = .none := rfl
@[simp] theorem result_fail (op : BitVec 4) (st : Status) : (result op st).fail = .none := rfl
@[simp] theorem result_fromAddr (op : BitVec 4) (st : Status) : (result op st).fromAddr = 0 := rfl
@[simp] theorem result_toAddr (op : BitVec 4) (st : Status) : (result op st).toAddr = 0 := rfl
@[simp] theorem result_typ (op : BitVec 4) (st : Status) : (result op st).typ = 0 := rfl
@[simp] theorem result_data (op : BitVec 4) (st : Status) : (result op st).data = Vector.replicate 55 0 := rfl
@[simp] theorem result_integrity (op : BitVec 4) (st : Status) : (result op st).integrity = 0 := rfl
@[simp] theorem result_consumed (op : BitVec 4) (st : Status) : (result op st).consumed = 0 := rfl
@[simp] theorem result_frame (op : BitVec 4) (st : Status) : (result op st).frame = Vector.replicate 63 0 := rfl
@[simp] theorem result_var (op : BitVec 4) (st : Status) : (result op st).var = 0 := rfl
@[simp] theorem result_f0 (op : BitVec 4) (st : Status) : (result op st).f0 = 0 := rfl
@[simp] theorem result_f1 (op : BitVec 4) (st : Status) : (result op st).f1 = 0 := rfl
@[simp] theorem result_f2 (op : BitVec 4) (st : Status) : (result op st).f2 = 0 := rfl
@[simp] theorem result_f3 (op : BitVec 4) (st : Status) : (result op st).f3 = 0 := rfl

@[simp] theorem emit_valid (r : Res) (f : FrameRecord) : (emit r f).valid = r.valid := rfl
@[simp] theorem emit_op (r : Res) (f : FrameRecord) : (emit r f).op = r.op := rfl
@[simp] theorem emit_status (r : Res) (f : FrameRecord) : (emit r f).status = r.status := rfl
@[simp] theorem emit_frameOk (r : Res) (f : FrameRecord) : (emit r f).frameOk = true := rfl
@[simp] theorem emit_event (r : Res) (f : FrameRecord) : (emit r f).event = r.event := rfl
@[simp] theorem emit_fail (r : Res) (f : FrameRecord) : (emit r f).fail = r.fail := rfl
@[simp] theorem emit_fromAddr (r : Res) (f : FrameRecord) : (emit r f).fromAddr = f.fromAddr := rfl
@[simp] theorem emit_toAddr (r : Res) (f : FrameRecord) : (emit r f).toAddr = f.toAddr := rfl
@[simp] theorem emit_typ (r : Res) (f : FrameRecord) : (emit r f).typ = f.typ := rfl
@[simp] theorem emit_data (r : Res) (f : FrameRecord) : (emit r f).data = f.data := rfl
@[simp] theorem emit_integrity (r : Res) (f : FrameRecord) : (emit r f).integrity = f.integrity := rfl
@[simp] theorem emit_consumed (r : Res) (f : FrameRecord) : (emit r f).consumed = 63 := rfl
@[simp] theorem emit_frame (r : Res) (f : FrameRecord) : (emit r f).frame = r.frame := rfl
@[simp] theorem emit_var (r : Res) (f : FrameRecord) : (emit r f).var = r.var := rfl
@[simp] theorem emit_f0 (r : Res) (f : FrameRecord) : (emit r f).f0 = r.f0 := rfl
@[simp] theorem emit_f1 (r : Res) (f : FrameRecord) : (emit r f).f1 = r.f1 := rfl
@[simp] theorem emit_f2 (r : Res) (f : FrameRecord) : (emit r f).f2 = r.f2 := rfl
@[simp] theorem emit_f3 (r : Res) (f : FrameRecord) : (emit r f).f3 = r.f3 := rfl

@[simp] theorem feedResult_valid (e : Event) (x : Fail) : (feedResult e x).valid = true := rfl
@[simp] theorem feedResult_op (e : Event) (x : Fail) : (feedResult e x).op = 1 := rfl
@[simp] theorem feedResult_status (e : Event) (x : Fail) : (feedResult e x).status = .ok := rfl
@[simp] theorem feedResult_frameOk (e : Event) (x : Fail) : (feedResult e x).frameOk = false := rfl
@[simp] theorem feedResult_event (e : Event) (x : Fail) : (feedResult e x).event = e := rfl
@[simp] theorem feedResult_fail (e : Event) (x : Fail) : (feedResult e x).fail = x := rfl
@[simp] theorem feedResult_fromAddr (e : Event) (x : Fail) : (feedResult e x).fromAddr = 0 := rfl
@[simp] theorem feedResult_toAddr (e : Event) (x : Fail) : (feedResult e x).toAddr = 0 := rfl
@[simp] theorem feedResult_typ (e : Event) (x : Fail) : (feedResult e x).typ = 0 := rfl
@[simp] theorem feedResult_data (e : Event) (x : Fail) : (feedResult e x).data = Vector.replicate 55 0 := rfl
@[simp] theorem feedResult_integrity (e : Event) (x : Fail) : (feedResult e x).integrity = 0 := rfl
@[simp] theorem feedResult_consumed (e : Event) (x : Fail) : (feedResult e x).consumed = 0 := rfl
@[simp] theorem feedResult_frame (e : Event) (x : Fail) : (feedResult e x).frame = Vector.replicate 63 0 := rfl
@[simp] theorem feedResult_var (e : Event) (x : Fail) : (feedResult e x).var = 0 := rfl
@[simp] theorem feedResult_f0 (e : Event) (x : Fail) : (feedResult e x).f0 = 0 := rfl
@[simp] theorem feedResult_f1 (e : Event) (x : Fail) : (feedResult e x).f1 = 0 := rfl
@[simp] theorem feedResult_f2 (e : Event) (x : Fail) : (feedResult e x).f2 = 0 := rfl
@[simp] theorem feedResult_f3 (e : Event) (x : Fail) : (feedResult e x).f3 = 0 := rfl

/-- The word the host presents is the one `step` accepts (R29). -/
@[simp] theorem State.withFetchWord_ports_opw (s : State) (nbits w : Nat) :
    (s.withFetchWord nbits w).ports.opw = BitVec.ofNat 16 (w % 2 ^ nbits) := rfl
@[simp] theorem State.withFetchWord_ports_opValid (s : State) (nbits w : Nat) :
    (s.withFetchWord nbits w).ports.opValid = true := rfl
@[simp] theorem State.withFetchWord_ports_rst (s : State) (nbits w : Nat) :
    (s.withFetchWord nbits w).ports.rst = false := rfl
@[simp] theorem State.withFetchWord_st (s : State) (nbits w : Nat) : (s.withFetchWord nbits w).st = s.st := rfl
@[simp] theorem State.withFetchWord_buf (s : State) (nbits w : Nat) : (s.withFetchWord nbits w).buf = s.buf := rfl
@[simp] theorem State.withFetchWord_res (s : State) (nbits w : Nat) : (s.withFetchWord nbits w).res = s.res := rfl
@[simp] theorem State.withFetchWord_cfg (s : State) (nbits w : Nat) : (s.withFetchWord nbits w).cfg = s.cfg := rfl

end Sys2Proof.Machine
end

