-- ==== Sys2Proof/Laws/Ops.lean ====
section
/-! SUPPORT. The shared operations: the integrity function, building and checking a frame, and what the codec
operations write. -/

namespace Sys2Proof.Machine

/-- The integrity function reads its bytes one after another (R68). -/
theorem crc8_append (c : Config) (a b : List Byte) :
    crc8 c (a ++ b) = b.foldl (crcByte c.crcPoly) (a.foldl (crcByte c.crcPoly) c.crcInit) ^^^ c.crcXorout := by
  simp [crc8]

theorem crcShift_zero (poly : Byte) : crcShift poly 0 = 0 := by simp [crcShift]

/-- The body of a frame has 61 bytes (R132). -/
theorem frameBody_length (c : Config) (f t : Addr) (ty : Byte) {p : List Byte} (h : p.length ≤ dataLen) :
    (frameBody c f t ty p).length = 61 := by
  simp only [frameBody, List.length_append, pad55_length h, bytesLe16_length, List.length_singleton]
  rfl

/-- A frame has 63 bytes (R60). -/
theorem buildFrame_length (c : Config) (f t : Addr) (ty : Byte) {p : List Byte} (h : p.length ≤ dataLen) :
    (buildFrame c f t ty p).length = 63 := by
  simp only [buildFrame, List.length_append, frameBody_length c f t ty h, List.length_singleton]

/-- What `frame_check` answers, case by case (R139). -/
theorem frameCheck_cases (c : Config) (w : Vector Byte 63) :
    ((w[0] ≠ c.startByte ∨ w[62] ≠ c.endByte) ∧ frameCheck c w = .invalidFrame)
      ∨ (w[0] = c.startByte ∧ w[62] = c.endByte ∧ crc8 c (w.toList.take 61) ≠ w[61] ∧ frameCheck c w = .crcMismatch)
      ∨ (w[0] = c.startByte ∧ w[62] = c.endByte ∧ crc8 c (w.toList.take 61) = w[61] ∧ frameCheck c w = .ok) := by
  unfold frameCheck
  split
  · exact .inl ⟨‹_›, rfl⟩
  · rename_i h
    obtain ⟨h0, h1⟩ := not_or.mp h
    split
    · exact .inr (.inl ⟨not_not.mp h0, not_not.mp h1, ‹_›, rfl⟩)
    · exact .inr (.inr ⟨not_not.mp h0, not_not.mp h1, not_not.mp ‹_›, rfl⟩)

theorem frameCheck_ok_iff (c : Config) (w : Vector Byte 63) :
    frameCheck c w = .ok ↔ w[0] = c.startByte ∧ w[62] = c.endByte ∧ crc8 c (w.toList.take 61) = w[61] := by
  rcases frameCheck_cases c w with ⟨h, e⟩ | ⟨h0, h1, h2, e⟩ | ⟨h0, h1, h2, e⟩ <;> rw [e] <;> simp <;> tauto

/-- ENCF of one of the six variants is never too large (R71, R119). -/
theorem encodeResult_core (c : Config) (p : Ports) (v : Variant) (ty : Byte) :
    encodeResult c p ty (marshal v p.buses)
      = { result 0x3 .ok with frame := bytesVec 63 (buildFrame c p.encFrom p.encTo ty (marshal v p.buses)) } := by
  unfold encodeResult
  rw [if_neg (Nat.not_lt.mpr (marshal_length_le v p))]

/-- ENCF of an extra variant is always too large (R119). -/
theorem encodeResult_extra (c : Config) (p : Ports) (ty : Byte) (e : ExtraVariant) :
    encodeResult c p ty (extraMarshal e) = result 0x3 .payloadTooLarge := by
  unfold encodeResult
  rw [if_pos (dataLen_lt_extraMarshal e)]

/-- DECF: the four results (R141). -/
theorem decodeFrameResult_cases (c : Config) (p : Ports) :
    (p.winLen.toNat < 63 ∧ decodeFrameResult c p = result 0x4 .frameTooShort)
      ∨ (63 ≤ p.winLen.toNat ∧ frameCheck c p.win = .invalidFrame ∧ decodeFrameResult c p = result 0x4 .invalidFrame)
      ∨ (63 ≤ p.winLen.toNat ∧ frameCheck c p.win = .crcMismatch ∧ decodeFrameResult c p = result 0x4 .crcMismatch)
      ∨ (63 ≤ p.winLen.toNat ∧ frameCheck c p.win = .ok
          ∧ decodeFrameResult c p = emit (result 0x4 .ok) (parse p.win)) := by
  unfold decodeFrameResult
  split
  · exact .inl ⟨‹_›, rfl⟩
  · have h : 63 ≤ p.winLen.toNat := Nat.not_lt.mp ‹_›
    split
    · exact .inr (.inr (.inr ⟨h, ‹_›, rfl⟩))
    · exact .inr (.inl ⟨h, ‹_›, rfl⟩)
    · exact .inr (.inr (.inl ⟨h, ‹_›, rfl⟩))

/-- DECP: the three results (R146). -/
theorem decodePayloadResult_cases (c : Config) (p : Ports) :
    (lookup c p.dpType = none ∧ decodePayloadResult c p = result 0x5 .unknownType)
      ∨ (∃ e, lookup c p.dpType = some (.extra e) ∧ decodePayloadResult c p = result 0x5 .malformedPayload)
      ∨ (∃ v, lookup c p.dpType = some (.core v) ∧ decodePayloadResult c p
          = { result 0x5 .ok with
              f0 := (unmarshal v p.dpData.toList).getD 0 0, f1 := (unmarshal v p.dpData.toList).getD 1 0,
              f2 := (unmarshal v p.dpData.toList).getD 2 0, f3 := (unmarshal v p.dpData.toList).getD 3 0,
              var := ordinal v, typ := p.dpType }) := by
  unfold decodePayloadResult
  split
  · exact .inl ⟨‹_›, rfl⟩
  · exact .inr (.inl ⟨_, ‹_›, rfl⟩)
  · rename_i v h
    exact .inr (.inr ⟨v, h, by rw [if_neg (Nat.not_lt.mpr (width_le_dataLen v))]⟩)

end Sys2Proof.Machine
end

