-- ==== Sys2Proof/Laws/PerInstr.lean ====
section
/-! SUPPORT. One lemma per operation: its word falls in its own row of the table of R81. -/

namespace Sys2Proof.Laws.RowMatch

/-- `(opw AND mask) = match` for the operation's word and row (R81). -/
def Statement (i : Instr) : Prop := (rowOf i).hits (encode i) = true

theorem nop : Statement .nop := by unfold Statement; decide
theorem feed (b : Byte) : Statement (.feed b) := by
  revert b
  simp only [Statement, rowOf, encode]
  decide +kernel
theorem dreset : Statement .dreset := by unfold Statement; decide
theorem encfAtt : Statement .encfAtt := by unfold Statement; decide
theorem encfAlt : Statement .encfAlt := by unfold Statement; decide
theorem encfGps : Statement .encfGps := by unfold Statement; decide
theorem encfCtl : Statement .encfCtl := by unfold Statement; decide
theorem encfGyr : Statement .encfGyr := by unfold Statement; decide
theorem encfAcc : Statement .encfAcc := by unfold Statement; decide
theorem decf : Statement .decf := by unfold Statement; decide
theorem decp : Statement .decp := by unfold Statement; decide

end Sys2Proof.Laws.RowMatch
end

