-- ==== Sys2Proof/Laws/Sfd.lean ====
section
/-! SUPPORT. The Streaming Frame Decoder: everything a FEED can do, said once. -/

namespace Sys2Proof.Machine

/-- The two branches that reject a candidate (R166, R167). -/
theorem feedReject_cases (r : Verdict) (c : List Byte) (s : State) :
    (∃ k, (c.drop 1).findIdx? (· == s.cfg.startByte) = some k
        ∧ feedReject r c s
          = (s.withSfd .accumulating (Buf.ofList ((c.drop 1).drop k))).withRes (feedResult .resyncKeep r.fail))
      ∨ ((c.drop 1).findIdx? (· == s.cfg.startByte) = none
        ∧ feedReject r c s = s.seek.withRes (feedResult .resyncDrop r.fail)) := by
  unfold feedReject
  dsimp only
  split
  · exact .inl ⟨_, ‹_›, rfl⟩
  · exact .inr ⟨‹_›, rfl⟩

/-- A FEED takes exactly one branch (R160): the state it is in, and the state it leaves. -/
theorem feed_cases (b : Byte) (s : State) :
    (((s.st ≠ .seeking ∧ s.st ≠ .accumulating)
          ∨ (s.st = .accumulating ∧ (s.buf.bytes.length = 0 ∨ 63 ≤ s.buf.bytes.length)))
        ∧ feed b s = feedDefensive s)
      ∨ (s.st = .seeking ∧ feed b s = feedSeek b s)
      ∨ (s.st = .accumulating ∧ 1 ≤ s.buf.bytes.length ∧ s.buf.bytes.length ≤ 61
        ∧ feed b s = feedAppend (s.buf.bytes ++ [b]) s)
      ∨ (s.st = .accumulating ∧ s.buf.bytes.length = 62 ∧ feed b s = feedCandidate (s.buf.bytes ++ [b]) s) := by
  unfold feed
  split
  · exact .inl ⟨‹_›, rfl⟩
  · rename_i h
    split
    · exact .inr (.inl ⟨‹_›, rfl⟩)
    · rename_i hs
      have ha : s.st = .accumulating := by
        by_contra ha
        exact h (.inl ⟨hs, ha⟩)
      have hl : ¬(s.buf.bytes.length = 0 ∨ 63 ≤ s.buf.bytes.length) := fun hl => h (.inr ⟨ha, hl⟩)
      simp only [List.length_append, List.length_singleton, show frameLen = 63 from rfl]
      split
      · exact .inr (.inr (.inl ⟨ha, by omega, by omega, rfl⟩))
      · exact .inr (.inr (.inr ⟨ha, by omega, rfl⟩))

/-- The three outcomes of the candidate check (R164 to R167). -/
theorem feedCandidate_cases (c : List Byte) (s : State) :
    (frameCheck s.cfg (bytesVec 63 c) = .ok ∧ feedCandidate c s = feedEmit (bytesVec 63 c) s)
      ∨ (∃ r, r ≠ .ok ∧ frameCheck s.cfg (bytesVec 63 c) = r ∧ feedCandidate c s = feedReject r c s) := by
  unfold feedCandidate
  split
  · exact .inl ⟨‹_›, rfl⟩
  · exact .inr ⟨.invalidFrame, by decide, ‹_›, rfl⟩
  · exact .inr ⟨.crcMismatch, by decide, ‹_›, rfl⟩

/-- No FEED writes the configuration or the host's inputs (R27, R36). -/
theorem feed_frame (b : Byte) (s : State) : (feed b s).cfg = s.cfg ∧ (feed b s).cycles = s.cycles := by
  rcases feed_cases b s with ⟨-, e⟩ | ⟨-, e⟩ | ⟨-, -, -, e⟩ | ⟨-, -, e⟩ <;> rw [e]
  · simp [feedDefensive]
  · unfold feedSeek
    split <;> simp
  · simp [feedAppend]
  · rcases feedCandidate_cases (s.buf.bytes ++ [b]) s with ⟨-, e'⟩ | ⟨r, -, -, e'⟩ <;> rw [e']
    · simp [feedEmit]
    · rcases feedReject_cases r (s.buf.bytes ++ [b]) s with ⟨k, -, e''⟩ | ⟨-, e''⟩ <;> rw [e''] <;> simp

end Sys2Proof.Machine
end

