-- ==== Sys2Proof/Laws/Step.lean ====
section
/-! SUPPORT. What an operation and a step can do, said once. -/

namespace Sys2Proof.Machine

/-- The operations of the Frame Codec (R130). -/
def codecOps : List Instr := [.nop, .encfAtt, .encfAlt, .encfGps, .encfCtl, .encfGyr, .encfAcc, .decf, .decp]

/-- The result a codec operation writes: a function of the configuration and the operand buses (R13, R50). -/
def codecResult (cfg : Config) (p : Ports) : Instr → Res
  | .encfAtt => encodeResult cfg p (tag cfg .att) (marshal .att p.buses)
  | .encfAlt => encodeResult cfg p (tag cfg .alt) (marshal .alt p.buses)
  | .encfGps => encodeResult cfg p (tag cfg .gps) (marshal .gps p.buses)
  | .encfCtl => encodeResult cfg p (tag cfg .ctl) (marshal .ctl p.buses)
  | .encfGyr => encodeResult cfg p (tag cfg .gyr) (marshal .gyr p.buses)
  | .encfAcc => encodeResult cfg p (tag cfg .acc) (marshal .acc p.buses)
  | .decf => decodeFrameResult cfg p
  | .decp => decodePayloadResult cfg p
  | .nop | .feed _ | .dreset => result 0x0 .ok

theorem exec_codec {i : Instr} (h : i ∈ codecOps) (s : State) :
    exec i s = .next (s.withRes (codecResult s.cfg s.ports i)) := by
  simp only [codecOps, List.mem_cons, List.not_mem_nil, or_false] at h
  rcases h with rfl | rfl | rfl | rfl | rfl | rfl | rfl | rfl | rfl <;> rfl

theorem exec_feed (b : Byte) (s : State) : exec (.feed b) s = .next (feed b s) := rfl

theorem exec_dreset (s : State) :
    exec .dreset s = .next (s.seek.withRes { result 0x2 .ok with event := .cleared }) := rfl

/-- An operation is a codec operation, FEED or DRESET. -/
theorem instr_cases (i : Instr) : i ∈ codecOps ∨ (∃ b, i = .feed b) ∨ i = .dreset := by
  cases i <;> simp [codecOps]

/-- What an accepted word does (R81, R82, R149). -/
theorem acceptWord_cases (w : OpWord) (s : State) :
    (∃ i, decode w = .op i ∧ acceptWord w s = exec i s)
      ∨ (∃ r e, decode w = .illegal r ∧ extraWord s.cfg w = some e ∧ acceptWord w s = execEncfExtra e s)
      ∨ (∃ r, decode w = .illegal r ∧ extraWord s.cfg w = none ∧ acceptWord w s = execIllegal (opField w) s) := by
  unfold acceptWord
  split
  · exact .inl ⟨_, ‹_›, rfl⟩
  · split
    · exact .inr (.inl ⟨_, _, ‹_›, ‹_›, rfl⟩)
    · exact .inr (.inr ⟨_, ‹_›, ‹_›, rfl⟩)

theorem atNextCycle_eq_next {o : Host.Outcome State Fault Refusal} {t : State} :
    atNextCycle o = .next t ↔ ∃ u, o = .next u ∧ t = u.nextCycle := by
  cases o <;> simp [atNextCycle, eq_comm]

/-- Everything a step that goes on can have done: reset, nothing, or an accepted word (R29, R231). -/
theorem step_cases {s t : State} (h : step s = .next t) :
    s.cfg.wf = true ∧
      ((s.ports.rst = true ∧ t = s.resetBlock.nextCycle)
        ∨ (s.ports.rst = false ∧ s.ports.opValid = false ∧ t = s.nextCycle)
        ∨ (s.ports.rst = false ∧ s.ports.opValid = true
            ∧ ∃ u, acceptWord s.ports.opw s = .next u ∧ t = u.nextCycle)) := by
  unfold step at h
  split at h
  · refine ⟨‹_›, ?_⟩
    unfold cycle at h
    split at h
    · exact .inl ⟨‹_›, by simpa using h.symm⟩
    · rename_i hr
      have hr : s.ports.rst = false := by simpa using hr
      split at h
      · exact .inr (.inr ⟨hr, ‹_›, atNextCycle_eq_next.mp h⟩)
      · exact .inr (.inl ⟨hr, by simpa using ‹¬s.ports.opValid = true›, by simpa using h.symm⟩)
  · cases h

end Sys2Proof.Machine
end

