-- ==== Sys2Proof/Machine/Assembler.lean ====
section
/-! DEFINITION. The text of a program (30_encoding.md R85, R86): one operation per line, `;` starting a comment. What
R85 leaves open of the text is log entry 5's. No step uses this file. -/

namespace Sys2Proof.Machine

/-- The pieces of a line: a word, or one of the marks `,` `=` `[` `]`. -/
inductive Token where
  | word (s : String)
  | mark (c : Char)
deriving DecidableEq, Repr

/-- The marks of R85. -/
def isMark (c : Char) : Bool := c == ',' || c == '=' || c == '[' || c == ']'

/-- Space, tab and carriage return separate words. -/
def isBlank (c : Char) : Bool := c == ' ' || c == '\t' || c == '\r'

/-- A finished word in front of the tokens after it. -/
def pushWord (w : List Char) (ts : List Token) : List Token :=
  if w.isEmpty then ts else .word (String.ofList w) :: ts

/-- The word a text begins with, and the tokens after it. -/
def scan : List Char → List Char × List Token
  | [] => ([], [])
  | c :: cs =>
    let r := scan cs
    if isBlank c then ([], pushWord r.1 r.2)
    else if isMark c then ([], .mark c :: pushWord r.1 r.2)
    else (c :: r.1, r.2)

/-- The tokens of a line, its comment left off (R85). -/
def tokens (line : List Char) : List Token :=
  let r := scan (line.takeWhile (· != ';'))
  pushWord r.1 r.2

/-- The value of a digit in a base of at most 16. -/
def digit (base : Nat) (c : Char) : Option Nat :=
  let n := c.toNat
  let v := if 48 ≤ n ∧ n ≤ 57 then n - 48 else if 97 ≤ n ∧ n ≤ 102 then n - 87 else if 65 ≤ n ∧ n ≤ 70 then n - 55 else 16
  if v < base then some v else none

/-- The digits `cs` after the number `acc`. -/
def digitsAfter (base acc : Nat) : List Char → Option Nat
  | [] => some acc
  | c :: cs => (digit base c).bind fun d => digitsAfter base (base * acc + d) cs

/-- A number of one digit or more. -/
def digits (base : Nat) (cs : List Char) : Option Nat := if cs.isEmpty then none else digitsAfter base 0 cs

/-- A "decimal or hex integer" below `bound` (R85). -/
def integer (bound : Nat) (s : String) : Option Nat :=
  (match s.toList with
    | '0' :: 'x' :: cs => digits 16 cs
    | cs => digits 10 cs).filter (· < bound)

/-- A byte operand. -/
def byteOperand (s : String) : Option Byte := (integer 256 s).map (BitVec.ofNat 8)

/-- A `<u16>` operand, "0 to 65535" (R85). -/
def addrOperand (s : String) : Option Addr := (integer 65536 s).map (BitVec.ofNat 16)

/-- A decimal literal without its sign: digits, or digits, a point and digits. -/
def decimalLiteral (neg : Bool) (cs : List Char) : Option Literal :=
  match cs.dropWhile (· != '.') with
  | [] => (digits 10 cs).map fun n => .decimal neg n 0
  | _ :: frac =>
    let whole := cs.takeWhile (· != '.')
    if whole.isEmpty || frac.isEmpty then none else (digits 10 (whole ++ frac)).map fun n => .decimal neg n frac.length

/-- A `<b32>` or `<b64>` operand: a raw hex pattern of at most `width` bits, or a decimal literal (R85). -/
def floatOperand (width : Nat) (s : String) : Option Literal :=
  match s.toList with
  | '0' :: 'x' :: cs => ((digits 16 cs).filter (· < 2 ^ width)).map .bits
  | '-' :: cs => decimalLiteral true cs
  | cs => decimalLiteral false cs

/-- The values of `, name=value` operands with exactly these names, in this order (R85). -/
def namedOperands : List String → List Token → Option (List String)
  | [], [] => some []
  | n :: ns, .mark ',' :: .word m :: .mark '=' :: .word v :: ts =>
    if m = n then (namedOperands ns ts).map (v :: ·) else none
  | _, _ => none

/-- Bytes separated by commas, one or more. -/
def byteSequence : List Token → Option (List Byte)
  | [.word v] => (byteOperand v).map fun b => [b]
  | .word v :: .mark ',' :: ts => (byteOperand v).bind fun b => (byteSequence ts).map (b :: ·)
  | _ => none

/-- Bytes in square brackets, none or more. -/
def byteList : List Token → Option (List Byte)
  | [.mark '[', .mark ']'] => some []
  | .mark '[' :: ts => if ts.getLast? = some (.mark ']') then byteSequence ts.dropLast else none
  | _ => none

/-- The operands of an ENCF line (R85). -/
def encfLine (variant : String) (ts : List Token) : Option AsmLine :=
  match variant with
  | "ATT" => do
    let [f, t, a, b, c] ← namedOperands ["from", "to", "roll", "pitch", "yaw"] ts | none
    some (.encfAtt (← addrOperand f) (← addrOperand t) (← floatOperand 32 a) (← floatOperand 32 b) (← floatOperand 32 c))
  | "ALT" => do
    let [f, t, a, b] ← namedOperands ["from", "to", "altitude", "climb_rate"] ts | none
    some (.encfAlt (← addrOperand f) (← addrOperand t) (← floatOperand 32 a) (← floatOperand 32 b))
  | "GPS" => do
    let [f, t, a, b, c] ← namedOperands ["from", "to", "lat", "lon", "alt"] ts | none
    some (.encfGps (← addrOperand f) (← addrOperand t) (← floatOperand 64 a) (← floatOperand 64 b) (← floatOperand 32 c))
  | "CTL" => do
    let [f, t, a, b, c, d] ← namedOperands ["from", "to", "roll", "pitch", "yaw", "throttle"] ts | none
    some (.encfCtl (← addrOperand f) (← addrOperand t) (← floatOperand 32 a) (← floatOperand 32 b) (← floatOperand 32 c)
      (← floatOperand 32 d))
  | "GYR" => do
    let [f, t, a, b, c] ← namedOperands ["from", "to", "x", "y", "z"] ts | none
    some (.encfGyr (← addrOperand f) (← addrOperand t) (← floatOperand 32 a) (← floatOperand 32 b) (← floatOperand 32 c))
  | "ACC" => do
    let [f, t, a, b, c] ← namedOperands ["from", "to", "x", "y", "z"] ts | none
    some (.encfAcc (← addrOperand f) (← addrOperand t) (← floatOperand 32 a) (← floatOperand 32 b) (← floatOperand 32 c))
  | _ => none

/-- The operands of a FEEDS line: bytes, or `@frameN` (R86). -/
def feedsLine (ts : List Token) : Option AsmLine :=
  match ts with
  | [.word s] =>
    match s.toList with
    | '@' :: 'f' :: 'r' :: 'a' :: 'm' :: 'e' :: cs => (digits 10 cs).map .feedsFrame
    | _ => (byteOperand s).map fun b => .feeds [b]
  | _ => (byteSequence ts).map .feeds

/-- The line a nonempty list of tokens stands for; `none` for text that R85 and R86 do not give. -/
def lineOfTokens : List Token → Option AsmLine
  | [.word "NOP"] => some .nop
  | [.word "FEED", .word b] => (byteOperand b).map .feed
  | [.word "DRESET"] => some .dreset
  | .word "ENCF" :: .word v :: ts => encfLine v ts
  | .word "DECF" :: ts => (byteList ts).map .decf
  | .word "DECP" :: .word "type" :: .mark '=' :: .word t :: .mark ',' :: .word "data" :: .mark '=' :: ts => do
    let data ← (byteList ts).filter (·.length == 55)
    some (.decp (← byteOperand t) (bytesVec 55 data))
  | [.word ".word", .word w] => (addrOperand w).map .word
  | .word "FEEDS" :: ts => feedsLine ts
  | _ => none

/-- The lines of a text. -/
def splitLines : List Char → List (List Char)
  | [] => [[]]
  | c :: cs =>
    match splitLines cs with
    | [] => [[c]]
    | l :: ls => if c = '\n' then [] :: l :: ls else (c :: l) :: ls

/-- The program of a text, lines with nothing but blanks and a comment left out. -/
def parseLines : List (List Char) → Option (List AsmLine)
  | [] => some []
  | l :: ls =>
    match tokens l with
    | [] => parseLines ls
    | ts => (lineOfTokens ts).bind fun a => (parseLines ls).map (a :: ·)

/-- The cycles a program's text presents to the block (R85, R86). -/
def assembleText (cfg : Config) (text : String) : Option (List Ports) :=
  (parseLines (splitLines text.toList)).bind (assemble cfg [])

end Sys2Proof.Machine
end

