-- ==== Sys2Proof/Tests/Slice0.lean ====
section
/-! SUPPORT. The model's own tests. Expected values come from spec/95_test_vectors.md and the worked examples of the
rules, named in each comment. The `witness_…` theorems show that the hypotheses of a statement are met. -/

namespace Sys2Proof.Tests

open Sys2Proof.Machine Sys2Proof.Claims

/-! ### Helpers -/

/-- A state of the default configuration with this SFD state and these ports. -/
def mk (t : SfdTag) (bs : List Byte) (p : Ports) : State :=
  { State.reset with st := t, buf := Buf.ofList bs, cycles := [p] }

/-- The state an outcome goes on in. -/
def next? : Host.Outcome State Fault Refusal → Option State
  | .next t => some t
  | _ => none

/-- What an outcome leaves on the status outputs and in the buffer. -/
def sfd? (o : Host.Outcome State Fault Refusal) : Option (SfdTag × List Byte) := (next? o).map fun t => (t.st, t.buf.bytes)

/-- What an outcome leaves in `RES`. -/
def res? (o : Host.Outcome State Fault Refusal) : Option Res := (next? o).map (·.res)

/-- The ATT frame of X2. -/
def attFrame : List Byte :=
  [0xA7, 0x64, 0x00, 0xC8, 0x00, 0x01, 0xCD, 0xCC, 0x8C, 0x3F, 0x00, 0x00, 0x00, 0x40, 0x00, 0x00, 0x40, 0x40]
    ++ List.replicate 43 0 ++ [0xB0, 0xAA]

/-- The GPS frame of X3. -/
def gpsFrame : List Byte :=
  [0xA7, 0x66, 0x00, 0xCA, 0x00, 0x03, 0x79, 0x58, 0xA8, 0x35, 0xCD, 0x0F, 0x44, 0x40, 0x3E, 0x79,
   0x58, 0xA8, 0x35, 0xBF, 0x52, 0xC0, 0xF6, 0xF8, 0x0D, 0x44] ++ List.replicate 35 0 ++ [0x3C, 0xAA]

/-- The data slot of the ATT frame. -/
def attData : Vector Byte 55 := bytesVec 55 ((attFrame.drop 6).take 55)

/-- The configuration of X8: one extra variant with tag 7 and 56 bytes. -/
def bigConfig : Config := { Config.default with extra := [⟨0x07, 0⟩] }

/-- The ports of the ATT example of R133. -/
def attPorts : Ports := presentEncf .encfAtt 100 200 0x3F8CCCCD 0x40000000 0x40400000 0

/-! ### WellFormed: an ill-formed term for each check the types leave open -/

theorem test_default_config_wf : Config.default.wf = true := by decide
theorem test_wf_refuses_equal_sentinels : { Config.default with endByte := 0xA7 }.wf = false := by decide
theorem test_wf_refuses_two_equal_tags :
    { Config.default with tags := { TagTable.default with acc := 0x01 } }.wf = false := by decide
theorem test_wf_refuses_extra_tag_of_a_core_variant :
    { Config.default with extra := [⟨0x06, 0⟩] }.wf = false := by decide
theorem test_wf_accepts_an_oversized_extra_variant : bigConfig.wf = true := by decide
theorem test_step_refuses_ill_formed_config :
    step { State.reset with cfg := { Config.default with endByte := 0xA7 } } = .refused .configIllFormed := rfl
theorem test_every_instr_wf : ∀ i ∈ candidates 0x10A7, i.wf = true := by decide

/-! ### Decode: the words of R81 written out from the table -/

theorem test_decode_nop : decode 0b0000000000000000 = .op .nop := by decide
theorem test_decode_feed_a7 : decode 0b0001000010100111 = .op (.feed 0xA7) := by decide
theorem test_decode_feed_80 : decode 0b0001000010000000 = .op (.feed 0x80) := by decide
theorem test_decode_dreset : decode 0b0010000000000000 = .op .dreset := by decide
theorem test_decode_encf_att : decode 0b0011000100000000 = .op .encfAtt := by decide
theorem test_decode_encf_alt : decode 0b0011001000000000 = .op .encfAlt := by decide
theorem test_decode_encf_gps : decode 0b0011001100000000 = .op .encfGps := by decide
theorem test_decode_encf_ctl : decode 0b0011010000000000 = .op .encfCtl := by decide
theorem test_decode_encf_gyr : decode 0b0011010100000000 = .op .encfGyr := by decide
theorem test_decode_encf_acc : decode 0b0011011000000000 = .op .encfAcc := by decide
theorem test_decode_decf : decode 0b0100000000000000 = .op .decf := by decide
theorem test_decode_decp : decode 0b0101000000000000 = .op .decp := by decide
-- 95 section 2.3 and 2.8: illegal words, by the case of R83
theorem test_decode_7000 : decode 0x7000 = .illegal .unassignedOp := by decide
theorem test_decode_1100 : decode 0x1100 = .illegal .feedSelector := by decide
theorem test_decode_0001 : decode 0x0001 = .illegal .nonzeroOperandBits := by decide
theorem test_decode_4100 : decode 0x4100 = .illegal .nonzeroOperandBits := by decide
theorem test_decode_3000 : decode 0x3000 = .illegal .encfSelector := by decide
theorem test_decode_3700 : decode 0x3700 = .illegal .encfSelector := by decide
theorem test_decode_3101 : decode 0x3101 = .illegal .encfImmediate := by decide
theorem test_decodeTableWord_feed : decodeTableWord 16 0x1064 = some (.feed 0x64) := by decide
theorem test_extra_word_is_legal_with_the_variant : extraWord bigConfig 0x3700 = some ⟨0x07, 0⟩ := by decide
theorem test_extra_word_needs_the_variant : extraWord Config.default 0x3700 = none := by decide

/-! ### One step of each operation, from the vectors of 95_test_vectors.md -/

-- O2
theorem test_nop_keeps_the_partial_frame :
    sfd? (exec .nop (mk .accumulating [0xA7, 0x64] Ports.idle)) = some (.accumulating, [0xA7, 0x64]) := by decide
-- E-ATT, with the ignored bits of M7 set
theorem test_encf_att_frame :
    (res? (exec .encfAtt (mk .seeking [] (presentEncf .encfAtt 100 200 0xFFFFFFFF3F8CCCCD 0x1234567840000000
      0x40400000 0xDEADBEEF)))).map (·.frame.toList) = some attFrame := by decide +kernel
-- E-ALT, with the ignored buses of M8 set
theorem test_encf_alt_frame :
    (res? (exec .encfAlt (mk .seeking [] (presentEncf .encfAlt 1 2 0x42C90000 0xC0100000 0xFFFFFFFF
      0xFFFFFFFF)))).map (·.frame.toList)
      = some ([0xA7, 0x01, 0x00, 0x02, 0x00, 0x02, 0x00, 0x00, 0xC9, 0x42, 0x00, 0x00, 0x10, 0xC0]
          ++ List.replicate 47 0 ++ [0x19, 0xAA]) := by decide +kernel
-- E-GPS
theorem test_encf_gps_frame :
    (res? (exec .encfGps (mk .seeking [] (presentEncf .encfGps 102 202 0x40440FCD35A85879 0xC052BF35A858793E
      0x440DF8F6 0)))).map (·.frame.toList) = some gpsFrame := by decide +kernel
-- E-CTL
theorem test_encf_ctl_frame :
    (res? (exec .encfCtl (mk .seeking [] (presentEncf .encfCtl 0xFFFF 0 0 0x80000000 0x3F800000
      0x3F000000)))).map (·.frame.toList)
      = some ([0xA7, 0xFF, 0xFF, 0x00, 0x00, 0x04, 0x00, 0x00, 0x00, 0x00, 0x00, 0x00, 0x00, 0x80, 0x00, 0x00, 0x80,
          0x3F, 0x00, 0x00, 0x00, 0x3F] ++ List.replicate 39 0 ++ [0x88, 0xAA]) := by decide +kernel
-- E-GYR
theorem test_encf_gyr_frame :
    (res? (exec .encfGyr (mk .seeking [] (presentEncf .encfGyr 0x1234 0xABCD 0x7FC00001 0x7F800000 0xBFC00000
      0)))).map (·.frame.toList)
      = some ([0xA7, 0x34, 0x12, 0xCD, 0xAB, 0x05, 0x01, 0x00, 0xC0, 0x7F, 0x00, 0x00, 0x80, 0x7F, 0x00, 0x00, 0xC0,
          0xBF] ++ List.replicate 43 0 ++ [0x52, 0xAA]) := by decide +kernel
-- E-ACC
theorem test_encf_acc_frame :
    (res? (exec .encfAcc (mk .seeking [] (presentEncf .encfAcc 0 0 0 0 0x411CF5C3 0)))).map (·.frame.toList)
      = some ([0xA7, 0x00, 0x00, 0x00, 0x00, 0x06, 0x00, 0x00, 0x00, 0x00, 0x00, 0x00, 0x00, 0x00, 0xC3, 0xF5, 0x1C,
          0x41] ++ List.replicate 43 0 ++ [0xE7, 0xAA]) := by decide +kernel
-- X8, in the test configuration: the two statuses the default configuration cannot reach
theorem test_extra_encf_is_too_large :
    (res? (step { mk .seeking [] (presentWord 0x3700) with cfg := bigConfig })).map (fun r => (r.op, r.status, r.frame))
      = some (0x3, .payloadTooLarge, Vector.replicate 63 0) := by decide
theorem test_extra_decp_is_malformed :
    (res? (step { mk .seeking [] (presentDecp 0x07 attData) with cfg := bigConfig })).map (fun r => (r.op, r.status))
      = some (0x5, .malformedPayload) := by decide
-- D3 and D10
theorem test_decf_longer_window :
    (res? (exec .decf (mk .seeking [] (presentDecf (attFrame ++ [1, 2, 3]))))).map
        (fun r => (r.status, r.fromAddr, r.toAddr, r.typ, r.integrity, r.consumed))
      = some (.ok, 100, 200, 0x01, 0xB0, 63) := by decide +kernel
theorem test_decf_sentinel_ranks_above_integrity :
    (res? (exec .decf (mk .seeking [] (presentDecf (((attFrame.set 0 0x00).set 62 0xAB).set 61 0x4F))))).map (·.status)
      = some .invalidFrame := by decide +kernel
-- DP7 with its padding of FF, and DP11
theorem test_decp_att_ignores_padding :
    (res? (exec .decp (mk .seeking [] (presentDecp 0x01 (bytesVec 55 ((attFrame.drop 6).take 12
        ++ List.replicate 43 0xFF)))))).map (fun r => (r.status, r.var, r.f0, r.f1, r.f2, r.f3))
      = some (.ok, 1, 0x3F8CCCCD, 0x40000000, 0x40400000, 0) := by decide +kernel
theorem test_decp_unknown_type :
    (res? (exec .decp (mk .seeking [] (presentDecp 0x07 attData)))).map (fun r => (r.status, r.typ))
      = some (.unknownType, 0) := by decide +kernel
-- F10 (k = 29) and F12
theorem test_feed_keeps_from_the_planted_start :
    sfd? (exec (.feed 0xAA) (mk .accumulating ((gpsFrame.set 30 0xA7).take 62) Ports.idle))
      = some (.accumulating, (gpsFrame.set 30 0xA7).drop 30) := by decide +kernel
theorem test_feed_defensive_discards_a_start :
    (next? (exec (.feed 0xA7) (mk .accumulating attFrame Ports.idle))).map
        (fun t => (t.sfdState, t.sfdLen, t.res.event.code, t.res.fail.code)) = some (0, 0, 7, 3) := by decide
-- O3
theorem test_dreset_clears :
    (next? (exec .dreset (mk .accumulating [0xA7, 0x64] Ports.idle))).map
        (fun t => (t.sfdState, t.sfdLen, t.res.op, t.res.event.code, t.res.fail.code)) = some (0, 0, 2, 7, 0) := by
  decide
-- O6: the word is not fed
theorem test_illegal_word_changes_no_sfd_state :
    (next? (step (mk .accumulating [0xA7, 0x64] (presentWord 0x1100)))).map
        (fun t => (t.st, t.buf.bytes, t.res.op, t.res.status.code)) = some (.accumulating, [0xA7, 0x64], 1, 7) := by
  decide
-- RST2
theorem test_reset_wins_over_a_feed :
    sfd? (step (mk .seeking [] { presentWord 0x10A7 with rst := true })) = some (.seeking, []) := by decide
-- F3 through the host's entry
theorem test_fetch_word_feeds_a_start :
    sfd? (step (State.reset.withFetchWord 16 0x10A7)) = some (.accumulating, [0xA7]) := by decide
-- 95 section 2.1
theorem test_crc_of_01 : crc8 Config.default [0x01] = 0x07 := by decide
theorem test_crc_of_ff : crc8 Config.default [0xFF] = 0xF3 := by decide
-- P5's encoding column, and R86's FEEDS @frame1
theorem test_program_words :
    (assemble Config.default [] [.feed 0xA7, .decf (attFrame.take 62), .decp 0x00 (bytesVec 55 []), .word 0x1100,
        .feeds [0xAA, 0xBB], .dreset]).map (·.map (·.opw))
      = some [0x10A7, 0x4000, 0x5000, 0x1100, 0x10AA, 0x10BB, 0x2000] := by decide
theorem test_program_feeds_a_produced_frame :
    (assemble Config.default [] [.encfAtt 100 200 (.decimal false 11 1) (.decimal false 2 0) (.bits 0x40400000),
        .feedsFrame 1]).map (·.map (·.opw))
      = some (0x3100 :: attFrame.map fun b => encode (.feed b)) := by decide +kernel
theorem test_program_needs_the_frame : assemble Config.default [] [.feedsFrame 1] = none := by decide

-- the decimal literals of 93_implementation_defined.md section 4
theorem test_decimal_binary32 :
    [Literal.decimal false 11 1, .decimal true 225 2, .decimal false 56789 2, .decimal false 981 2, .decimal true 0 0].map
        Literal.b32 = [0x3F8CCCCD, 0xC0100000, 0x440DF8F6, 0x411CF5C3, 0x80000000] := by decide +kernel
theorem test_decimal_binary64 :
    [Literal.decimal false 4012345 5, .decimal true 7498765 5].map Literal.b64
      = [0x40440FCD35A85879, 0xC052BF35A858793E] := by decide +kernel

-- P1's first line and X2's operand values, with a comment, a blank line and R86's FEEDS
theorem test_text_encf_operands :
    (assembleText Config.default
        "  ENCF   ATT, from=100, to=0xC8, roll=1.1, pitch=2.0, yaw=0x40400000  ; 3100\n\n; none\nFEEDS 0xAA, 187").map
      (·.map fun p => [p.opw.toNat, p.encFrom.toNat, p.encTo.toNat, p.encF0.toNat, p.encF1.toNat, p.encF2.toNat])
      = some [[0x3100, 0x0064, 0x00C8, 0x3F8CCCCD, 0x40000000, 0x40400000], [0x10AA, 0, 0, 0, 0, 0],
          [0x10BB, 0, 0, 0, 0, 0]] := by
  decide +kernel
-- R85: DECF's list on the window, its length on win_len; .word with every bus 0
theorem test_text_decf_and_word :
    (assembleText Config.default "DECF [0xA7, 0x01]\n.word 0x1100").map
      (·.map fun p => [p.opw.toNat, p.winLen.toNat, p.win[0].toNat, p.win[1].toNat, p.win[2].toNat])
      = some [[0x4000, 2, 0xA7, 0x01, 0], [0x1100, 0, 0, 0, 0]] := by decide +kernel
theorem test_text_names_are_checked :
    assembleText Config.default "ENCF ALT, from=1, to=2, climb_rate=0, altitude=0" = none := by decide +kernel

/-! ### Witnesses: the hypotheses of the statements -/

theorem witness_DecodeOfEncodeIsTheOperation : (Instr.feed 0xFF).wf = true := by decide
theorem witness_EncodeOfDecodeIsTheWord : decode 0x10FF = .op (.feed 0xFF) := by decide
theorem accepts_present (t : SfdTag) (bs : List Byte) (p : Ports) (h : p.rst = false) (h' : p.opValid = true) :
    Accepts (mk t bs p) := ⟨test_default_config_wf, h, h'⟩
theorem witness_StepRunsTheDecodedOperation :
    Accepts (mk .seeking [] (present (.feed 0xA7))) ∧ decode (mk .seeking [] (present (.feed 0xA7))).ports.opw = .op (.feed 0xA7) :=
  ⟨accepts_present _ _ _ rfl rfl, by decide +kernel⟩
/-- One word per clause of R83, at the edges of its range. -/
def illegalWords : List OpWord :=
  [0x6000, 0xFFFF, 0x0001, 0x2001, 0x4100, 0x5800, 0x1100, 0x3000, 0x3700, 0x3F00, 0x3601]
theorem illegalWords_all : (illegalWords.all fun w => decide (Illegal Config.default w)) = true := by decide +kernel
theorem illegalWords_illegal (w : OpWord) (h : w ∈ illegalWords) : Illegal Config.default w := by
  exact of_decide_eq_true (List.all_eq_true.mp illegalWords_all w h)
theorem witness_IllegalWordOnlyReportsIllegalOperation :
    (∀ w ∈ illegalWords, Accepts (mk .accumulating [0xA7] (presentWord w)) ∧ Illegal Config.default w)
      ∧ Illegal bigConfig 0x3800 :=
  ⟨fun w hw => ⟨accepts_present _ _ _ rfl rfl, illegalWords_illegal w hw⟩, by decide +kernel⟩
theorem witness_OnlyIllegalWordsReportIllegalOperation :
    ∃ t, Accepts (mk .seeking [] (presentWord 0x6000)) ∧ step (mk .seeking [] (presentWord 0x6000)) = .next t
      ∧ t.res.status = .illegalOperation := ⟨_, accepts_present _ _ _ rfl rfl, rfl, rfl⟩
theorem witness_AcceptedOperationLeavesItsRecord : Accepts (mk .seeking [] (present .decf)) := accepts_present _ _ _ rfl rfl
theorem witness_EventIsNonzeroExactlyForSfdOperations :
    ∃ t, Accepts (mk .seeking [] (present .dreset)) ∧ step (mk .seeking [] (present .dreset)) = .next t :=
  ⟨_, accepts_present _ _ _ rfl rfl, rfl⟩
theorem witness_ResetWinsAndGivesTheResetValues :
    (mk .accumulating [0xA7] { presentWord 0x10A7 with rst := true }).cfg.wf = true
      ∧ (mk .accumulating [0xA7] { presentWord 0x10A7 with rst := true }).ports.rst = true := by decide
theorem witness_IdleCycleHoldsTheState :
    (mk .accumulating [0xA7] Ports.idle).cfg.wf = true ∧ (mk .accumulating [0xA7] Ports.idle).ports.rst = false
      ∧ (mk .accumulating [0xA7] Ports.idle).ports.opValid = false := by decide
theorem witness_EveryStepKeepsTheConfiguration : ∃ t, step (mk .seeking [] (present .nop)) = .next t := ⟨_, rfl⟩
/-- The premise of OnlyWellFormedConfigurationsRun. -/
abbrev PassesBuildCheck (c : Config) : Prop :=
  c.startByte ≠ c.endByte
    ∧ ([c.tags.att, c.tags.alt, c.tags.gps, c.tags.ctl, c.tags.gyr, c.tags.acc] ++ c.extra.map (·.tag)).Nodup
    ∧ (∀ v : Variant, width v ≤ 55) ∧ bufCap = frameLen
-- the default, and one with a variant of EXTRA_VARIANTS; then equal sentinels, two equal tags, an extra tag taken
theorem witness_OnlyWellFormedConfigurationsRun :
    (PassesBuildCheck Config.default ∧ PassesBuildCheck bigConfig)
      ∧ ¬PassesBuildCheck { Config.default with endByte := 0xA7 }
      ∧ ¬PassesBuildCheck { Config.default with tags := { TagTable.default with acc := 0x01 } }
      ∧ ¬PassesBuildCheck { Config.default with extra := [⟨0x06, 0⟩] } :=
  ⟨⟨⟨by decide, by decide, width_le_dataLen, rfl⟩, ⟨by decide, by decide, width_le_dataLen, rfl⟩⟩,
    fun h => absurd h.1 (by decide), fun h => absurd h.2.1 (by decide), fun h => absurd h.2.1 (by decide)⟩
/-- Nine extra variants: ordinals 7 to 15. -/
def nineConfig : Config :=
  { Config.default with extra := [⟨7, 0⟩, ⟨8, 0⟩, ⟨9, 0⟩, ⟨10, 0⟩, ⟨11, 0⟩, ⟨12, 0⟩, ⟨13, 0⟩, ⟨14, 0⟩, ⟨15, 3⟩] }
theorem witness_OversizedPayloadIsRejectedWithoutAFrame :
    (Accepts { mk .seeking [] (presentWord 0x3700) with cfg := nineConfig } ∧ nineConfig.extra[(0 : Fin 9).val]? = some ⟨7, 0⟩
        ∧ (0x3700 : OpWord) = 0x3000 + BitVec.ofNat 16 (((0 : Fin 9).val + 7) * 256))
      ∧ (Accepts { mk .seeking [] (presentWord 0x3F00) with cfg := nineConfig } ∧ nineConfig.extra[(8 : Fin 9).val]? = some ⟨15, 3⟩
        ∧ (0x3F00 : OpWord) = 0x3000 + BitVec.ofNat 16 (((8 : Fin 9).val + 7) * 256)) :=
  ⟨⟨⟨by decide, rfl, rfl⟩, by decide, by decide⟩, ⟨⟨by decide, rfl, rfl⟩, by decide, by decide⟩⟩
theorem witness_EncfReadsOnlyTheFieldPatterns :
    ∃ t w, exec (encfOf .att) (mk .seeking [] attPorts) = .next t
      ∧ exec (encfOf .att) (mk .seeking [] { attPorts with encF3 := 5, encF0 := 0xFFFFFFFF3F8CCCCD }) = .next w
      ∧ patterns .att attPorts = patterns .att { attPorts with encF3 := 5, encF0 := 0xFFFFFFFF3F8CCCCD } :=
  ⟨_, _, rfl, rfl, by decide⟩
theorem attFrame_passes : Passes Config.default attFrame := by decide +kernel
theorem witness_DecfReturnsTheFrame :
    63 ≤ (mk .seeking [] (presentDecf attFrame)).ports.winLen.toNat
      ∧ Passes Config.default (mk .seeking [] (presentDecf attFrame)).ports.win.toList := by decide +kernel
theorem witness_DecpReportsMalformedPayloadExactly :
    ({ mk .seeking [] (presentDecp 0x07 attData) with cfg := bigConfig } : State).cfg.wf = true
      ∧ (0x07 : Byte) ∈ bigConfig.extra.map (·.tag) := by decide
theorem witness_DecpReturnsThreeBinary32Fields :
    Config.default.wf = true ∧ (mk .seeking [] (presentDecp 0x01 attData)).ports.dpType = Config.default.tags.att
      ∧ (mk .seeking [] (presentDecp 0x05 attData)).ports.dpType = Config.default.tags.gyr
      ∧ (mk .seeking [] (presentDecp 0x06 attData)).ports.dpType = Config.default.tags.acc := by decide
theorem witness_DecpReturnsAltitudeFields :
    Config.default.wf = true ∧ (mk .seeking [] (presentDecp 0x02 attData)).ports.dpType = Config.default.tags.alt := by decide
theorem witness_DecpReturnsGpsFields :
    Config.default.wf = true ∧ (mk .seeking [] (presentDecp 0x03 attData)).ports.dpType = Config.default.tags.gps := by decide
theorem witness_DecpReturnsControlInputFields :
    Config.default.wf = true ∧ (mk .seeking [] (presentDecp 0x04 attData)).ports.dpType = Config.default.tags.ctl := by decide
theorem witness_DecpIgnoresThePadding :
    ∃ t w, exec .decp (mk .seeking [] (presentDecp 0x02 attData)) = .next t
      ∧ exec .decp (mk .seeking [] (presentDecp 0x02 (attData.set 8 0xEE))) = .next w
      ∧ tag Config.default .alt = 0x02
      ∧ attData.toList.take (width .alt) = (attData.set 8 0xEE).toList.take (width .alt) :=
  ⟨_, _, rfl, rfl, by decide, by decide⟩
theorem witness_CodecOperationsTouchOnlyTheResult :
    Instr.decp ∈ codec ∧ Accepts (mk .accumulating [0xA7] (presentWord 0x1100))
      ∧ Illegal Config.default (mk .accumulating [0xA7] (presentWord 0x1100)).ports.opw :=
  ⟨by decide, accepts_present _ _ _ rfl rfl, by decide +kernel⟩
theorem witness_CodecOperationBetweenFeedsChangesNothing :
    ∃ t u, Instr.encfAtt ∈ codec ∧ exec .encfAtt (mk .accumulating [0xA7] attPorts) = .next t
      ∧ exec (.feed 0x64) (mk .accumulating [0xA7] attPorts) = .next u := ⟨_, _, by decide, rfl, rfl⟩
theorem witness_CodecOperationsAreIdempotent :
    ∃ t, Instr.decf ∈ codec ∧ exec .decf (mk .seeking [] (presentDecf attFrame)) = .next t := ⟨_, by decide, rfl⟩
theorem witness_CrcOfSequenceAndItsCrcIsZero : Config.default.crcXorout = 0 := by decide
theorem witness_EncodeDecodeRoundTrip :
    ∃ t u x : State, (mk .seeking [] attPorts).cfg.wf = true ∧ exec (encfOf .att) (mk .seeking [] attPorts) = .next t
      ∧ u.cfg = Config.default ∧ u.ports.win = t.res.frame ∧ 63 ≤ u.ports.winLen.toNat
      ∧ x.cfg = Config.default ∧ x.ports.dpType = 0x01 ∧ x.ports.dpData = attData :=
  ⟨_, mk .seeking [] { presentDecf attFrame with win := (encodeVariant .att (mk .seeking [] attPorts)).res.frame },
    mk .seeking [] (presentDecp 0x01 attData), by decide, rfl, rfl, rfl, by decide, rfl, rfl, rfl⟩
/-- The premises of SingleBitFlipIsRejectedByDecf, for the ATT frame with bit `k` of byte `n` flipped. -/
abbrev FlippedWindow (n : Fin 63) (k : Fin 8) : Prop :=
  ∃ t u : State, Config.default.crcPoly ≠ 0 ∧ exec (encfOf .att) (mk .seeking [] attPorts) = .next t
    ∧ u.cfg = Config.default ∧ u.ports.win = flipBit t.res.frame n k ∧ 63 ≤ u.ports.winLen.toNat
theorem flippedWindow (n : Fin 63) (k : Fin 8) : FlippedWindow n k :=
  ⟨_, mk .seeking [] { presentDecf attFrame with win := flipBit (encodeVariant .att (mk .seeking [] attPorts)).res.frame n k },
    by decide, rfl, rfl, rfl, show 63 ≤ (presentDecf attFrame).winLen.toNat by decide⟩
-- the sentinels, bytes 0 and 62, and the first and last byte the CRC rejects
theorem witness_SingleBitFlipIsRejectedByDecf :
    (FlippedWindow 0 0 ∧ FlippedWindow 62 7) ∧ FlippedWindow 1 0 ∧ FlippedWindow 61 7 :=
  ⟨⟨flippedWindow 0 0, flippedWindow 62 7⟩, flippedWindow 1 0, flippedWindow 61 7⟩
-- one state per clause of R161
theorem witness_FeedInACorruptStateClears :
    (mk .complete [0xA7] Ports.idle).st = .complete ∧ (mk .reserved [] Ports.idle).st = .reserved
      ∧ ((mk .accumulating [] Ports.idle).st = .accumulating ∧ (mk .accumulating [] Ports.idle).len.toNat = 0)
      ∧ ((mk .accumulating attFrame Ports.idle).st = .accumulating ∧ 63 ≤ (mk .accumulating attFrame Ports.idle).len.toNat) := by
  decide
theorem witness_FeedInSeekingLooksForStart :
    (mk .seeking [1, 2] Ports.idle).st = .seeking ∧ (0xA7 : Byte) = (mk .seeking [1, 2] Ports.idle).cfg.startByte
      ∧ (0xA6 : Byte) ≠ (mk .seeking [1, 2] Ports.idle).cfg.startByte := by decide
-- len = 1 and len = 61
theorem witness_FeedAppendsBeforeTheBufferIsFull :
    (∀ bs ∈ [[0xA7], attFrame.take 61], (mk .accumulating bs Ports.idle).st = .accumulating
      ∧ 1 ≤ (mk .accumulating bs Ports.idle).len.toNat ∧ (mk .accumulating bs Ports.idle).len.toNat ≤ 61) := by decide
theorem witness_FeedEmitsAValidCandidate :
    (mk .accumulating (attFrame.take 62) Ports.idle).st = .accumulating
      ∧ (mk .accumulating (attFrame.take 62) Ports.idle).len.toNat = 62
      ∧ Passes Config.default ((mk .accumulating (attFrame.take 62) Ports.idle).buf.bytes ++ [0xAA]) := by decide +kernel
-- F11 (k = 0) and F11b (k = 61)
theorem witness_FeedKeepsFromTheNextStart :
    ((mk .accumulating ([0xA7, 0xA7] ++ List.replicate 60 0) Ports.idle).len.toNat = 62
        ∧ ¬Passes Config.default (([0xA7, 0xA7] ++ List.replicate 60 0) ++ [0x00])
        ∧ (([0xA7, 0xA7] ++ List.replicate 60 0) ++ [0x00] : List Byte).getD (0 + 1) 0 = 0xA7)
      ∧ ((mk .accumulating (0xA7 :: List.replicate 61 0) Ports.idle).len.toNat = 62
        ∧ ¬Passes Config.default ((0xA7 :: List.replicate 61 0) ++ [0xA7])
        ∧ ((0xA7 :: List.replicate 61 0) ++ [0xA7] : List Byte).getD (61 + 1) 0 = 0xA7
        ∧ ∀ j < 61, ((0xA7 :: List.replicate 61 0) ++ [0xA7] : List Byte).getD (j + 1) 0 ≠ 0xA7) := by decide +kernel
theorem witness_FeedDropsWithoutALaterStart :
    (mk .accumulating (0xA7 :: List.replicate 61 0) Ports.idle).len.toNat = 62
      ∧ ¬Passes Config.default ((0xA7 :: List.replicate 61 0) ++ [0x00])
      ∧ ∀ j ≤ 61, ((0xA7 :: List.replicate 61 0) ++ [0x00] : List Byte).getD (j + 1) 0 ≠ 0xA7 := by decide +kernel
theorem witness_DresetAndResetDifferOnlyInTheResult :
    (mk .seeking [] { Ports.idle with rst := true }).cfg.wf = true
      ∧ (mk .seeking [] { Ports.idle with rst := true }).ports.rst = true := by decide
theorem witness_SfdOperationsPreserveTheInvariant :
    SfdInv (mk .accumulating (attFrame.take 62) Ports.idle) ∧ SfdInv (mk .accumulating [0xA7] Ports.idle)
      ∧ SfdInv (mk .seeking [] Ports.idle) := by decide
theorem witness_EveryStepKeepsTheSfdInvariant :
    ∃ t, SfdInv (mk .accumulating [0xA7] (present (.feed 0x64))) ∧ step (mk .accumulating [0xA7] (present (.feed 0x64))) = .next t :=
  ⟨_, by decide, rfl⟩
theorem witness_EveryStepKeepsTheResultPromises :
    ∃ t, ResInv (mk .seeking [] (present .decf)).res ∧ step (mk .seeking [] (present .decf)) = .next t :=
  ⟨_, by decide, rfl⟩
theorem witness_OnlySfdOperationsAndResetChangeTheSfd :
    ∃ t, step (mk .seeking [] (present (.feed 0xA7))) = .next t ∧ t.st ≠ (mk .seeking [] (present (.feed 0xA7))).st :=
  ⟨_, rfl, by decide⟩
theorem witness_FeedingAValidFrameEmitsIt :
    (mk .seeking [] Ports.idle).st = .seeking ∧ (mk .seeking [] Ports.idle).len = 0
      ∧ Passes (mk .seeking [] Ports.idle).cfg (bytesVec 63 attFrame).toList := by decide +kernel
theorem witness_CandidateChecksAreBounded :
    (mk .seeking [] Ports.idle).st = .seeking ∧ (mk .seeking [] Ports.idle).len = 0 := by decide
/-- S8's shape: junk with a `START` before the ATT frame, and a `START` in the tail. -/
def junkStream : List Byte := [0x00, 0xA7, 0x00] ++ (bytesVec 63 attFrame).toList ++ (0xA7 :: List.replicate 62 0x01)
theorem junkStream_tail_fails : ¬Passes Config.default ((junkStream.drop 66).take 63) := by decide +kernel
theorem junkStream_length : junkStream.length = 129 := by decide +kernel
theorem witness_ResynchronisationEmitsExactlyTheFrame :
    Passes Config.default (bytesVec 63 attFrame).toList
      ∧ (∀ p < 3, junkStream[p]? = some 0xA7 → ¬Passes Config.default ((junkStream.drop p).take 63))
      ∧ (∀ p, 3 + 63 ≤ p → p + 63 ≤ junkStream.length → junkStream[p]? = some 0xA7 →
          ¬Passes Config.default ((junkStream.drop p).take 63)) := by
  refine ⟨by decide +kernel, by decide +kernel, fun p h1 h2 _ => ?_⟩
  rw [junkStream_length] at h2
  rw [show p = 66 by omega]
  exact junkStream_tail_fails
-- one state for every clause, and the bytes where the clauses meet: 0, then 1 and 61, then 62
theorem witness_SingleBitFlipIsNeverEmitted :
    (∃ t, Config.default.crcPoly ≠ 0 ∧ (mk .seeking [] attPorts).st = .seeking ∧ (mk .seeking [] attPorts).len = 0
      ∧ exec (encfOf .att) (mk .seeking [] attPorts) = .next t)
      ∧ (0 : Fin 63).val = 0 ∧ (∀ n ∈ ([1, 61] : List (Fin 63)), 1 ≤ n.val ∧ n.val ≤ 61) ∧ (62 : Fin 63).val = 62 :=
  ⟨⟨_, by decide, rfl, by decide, rfl⟩, by decide⟩

end Sys2Proof.Tests
end

/-! PROOF. DECP of each of the six variants (40_payload_registry.md R105, R112 to R117; 41_frame_codec.md R146). A DECP
whose type is the tag of variant `v` writes the record of `v` with the fields `unmarshal` reads; reading the fields one
after another from the data slot is reading each at its own offset. -/

namespace Sys2Proof.Proofs

open Sys2Proof.Machine Sys2Proof.Claims

@[simp] theorem unmarshalFields_nil (bs : List Byte) : unmarshalFields [] bs = [] := rfl

/-- R102: a binary32 field `i` bytes into the slot, and the fields after it. -/
theorem unmarshalFields_binary32_drop (fs : List Format) (d : Vector Byte 55) (i : Nat) :
    unmarshalFields (.binary32 :: fs) (d.toList.drop i) = field32 d i :: unmarshalFields fs (d.toList.drop (i + 4)) := by
  simp [unmarshalFields, Format.value, Format.width, le32, field32, List.getD_eq_getElem?_getD]

/-- R103: a binary64 field `i` bytes into the slot, and the fields after it. -/
theorem unmarshalFields_binary64_drop (fs : List Format) (d : Vector Byte 55) (i : Nat) :
    unmarshalFields (.binary64 :: fs) (d.toList.drop i) = field64 d i :: unmarshalFields fs (d.toList.drop (i + 8)) := by
  simp [unmarshalFields, Format.value, Format.width, le64, field64, List.getD_eq_getElem?_getD]

/-- The fields of a payload are read from offset 0 on (R105). -/
theorem unmarshal_eq_drop_zero (v : Variant) (bs : List Byte) : unmarshal v bs = unmarshalFields (fields v) (bs.drop 0) :=
  rfl

/-- R112, R116, R117: three binary32 fields. -/
theorem unmarshal_three (v : Variant) (h : fields v = [.binary32, .binary32, .binary32]) (d : Vector Byte 55) :
    unmarshal v d.toList = [field32 d 0, field32 d 4, field32 d 8] := by
  rw [unmarshal_eq_drop_zero, h]
  simp only [unmarshalFields_binary32_drop, unmarshalFields_nil]

/-- R113: two binary32 fields. -/
theorem unmarshal_alt (d : Vector Byte 55) : unmarshal .alt d.toList = [field32 d 0, field32 d 4] := by
  rw [unmarshal_eq_drop_zero, fields]
  simp only [unmarshalFields_binary32_drop, unmarshalFields_nil]

/-- R114: two binary64 fields and a binary32 field. -/
theorem unmarshal_gps (d : Vector Byte 55) : unmarshal .gps d.toList = [field64 d 0, field64 d 8, field32 d 16] := by
  rw [unmarshal_eq_drop_zero, fields]
  simp only [unmarshalFields_binary32_drop, unmarshalFields_binary64_drop, unmarshalFields_nil]

/-- R115: four binary32 fields. -/
theorem unmarshal_ctl (d : Vector Byte 55) :
    unmarshal .ctl d.toList = [field32 d 0, field32 d 4, field32 d 8, field32 d 12] := by
  rw [unmarshal_eq_drop_zero, fields]
  simp only [unmarshalFields_binary32_drop, unmarshalFields_nil]

/-- R118, R146: the tag of one of the six variants selects that variant, so neither failure can occur. -/
theorem decodePayloadResult_of_tag {c : Config} {p : Ports} {v : Variant} (hwf : c.wf = true) (htag : p.dpType = tag c v) :
    decodePayloadResult c p
      = { result 0x5 .ok with
          f0 := (unmarshal v p.dpData.toList).getD 0 0, f1 := (unmarshal v p.dpData.toList).getD 1 0,
          f2 := (unmarshal v p.dpData.toList).getD 2 0, f3 := (unmarshal v p.dpData.toList).getD 3 0,
          var := ordinal v, typ := p.dpType } := by
  have hlookup : lookup c p.dpType = some (.core v) := htag ▸ lookup_tag hwf v
  rcases decodePayloadResult_cases c p with ⟨h, -⟩ | ⟨e, h, -⟩ | ⟨w, h, hres⟩
  · simp [hlookup] at h
  · simp [hlookup] at h
  · obtain rfl : v = w := by simpa [hlookup] using h
    exact hres

/-- DECP with the tag of `v` writes only `RES`: the fields `unmarshal` reads for `v`, in order, 0 for one it lacks. -/
theorem exec_decp_decodedAs {s : State} (v : Variant) {f : List Bus} (hwf : s.cfg.wf = true)
    (htag : s.ports.dpType = tag s.cfg v) (hf : unmarshal v s.ports.dpData.toList = f) :
    ∃ t, exec .decp s = .next t
      ∧ DecodedAs s t (ordinal v) (f.getD 0 0) (f.getD 1 0) (f.getD 2 0) (f.getD 3 0) := by
  subst hf
  exact ⟨_, exec_codec (by decide) s, ⟨rfl, rfl, rfl, rfl⟩, decodePayloadResult_of_tag hwf htag⟩

/-- Settles O28: the three tags select three variants with the same field list. -/
theorem decpReturnsThreeBinary32Fields : Obligations.DecpReturnsThreeBinary32Fields := by
  intro s hwf
  refine ⟨fun htag => ?att, fun htag => ?gyr, fun htag => ?acc⟩
  case att => exact exec_decp_decodedAs .att hwf htag (unmarshal_three .att rfl s.ports.dpData)
  case gyr => exact exec_decp_decodedAs .gyr hwf htag (unmarshal_three .gyr rfl s.ports.dpData)
  case acc => exact exec_decp_decodedAs .acc hwf htag (unmarshal_three .acc rfl s.ports.dpData)

/-- Settles O29, from the two fields of an Altitude payload. -/
theorem decpReturnsAltitudeFields : Obligations.DecpReturnsAltitudeFields :=
  fun s hwf htag => exec_decp_decodedAs .alt hwf htag (unmarshal_alt s.ports.dpData)

/-- Settles O30, from the three fields of a Gps payload. -/
theorem decpReturnsGpsFields : Obligations.DecpReturnsGpsFields :=
  fun s hwf htag => exec_decp_decodedAs .gps hwf htag (unmarshal_gps s.ports.dpData)

/-- Settles O31, from the four fields of a ControlInput payload. -/
theorem decpReturnsControlInputFields : Obligations.DecpReturnsControlInputFields :=
  fun s hwf htag => exec_decp_decodedAs .ctl hwf htag (unmarshal_ctl s.ports.dpData)

end Sys2Proof.Proofs

/-! PROOF. The Frame Codec and illegal words (41_frame_codec.md R130 to R149; 30_encoding.md R83). A codec operation
writes `RES` with a function of the configuration and the operand buses (`exec_codec`), so each statement about one is a
statement about that record: the bytes of the frame ENCF builds, the verdict of the frame check behind DECF, and the tag
lookup behind DECP. An illegal word is one no row of the table hits and no extra variant claims. -/

namespace Sys2Proof.Proofs

open Sys2Proof.Machine Sys2Proof.Claims

/-! ### The frame of a codec operation -/

theorem withRes_onlyRes (s : State) (r : Res) : OnlyRes s (s.withRes r) := ⟨rfl, rfl, rfl, rfl⟩

/-- Settles O14: the record of NOP is the start of every result. -/
theorem nopClearsTheResult : Obligations.NopClearsTheResult :=
  fun s => ⟨_, exec_codec (by decide) s, withRes_onlyRes s _, rfl⟩

/-! ### ENCF: the bytes of the frame -/

/-- R102: the image of a binary32 field is the low four octets of its bus. -/
@[simp] theorem image_binary32 (f : Bus) : Format.image .binary32 f = bytes32 f := by
  simp [Format.image, bytesLe32, bytes32, octet, BitVec.extractLsb'_extractLsb'_of_le]

/-- R103: the image of a binary64 field is the eight octets of its bus. -/
@[simp] theorem image_binary64 (f : Bus) : Format.image .binary64 f = bytes64 f := rfl

@[simp] theorem marshalFields_nil (fs : List Bus) : marshalFields [] fs = [] := rfl

@[simp] theorem marshalFields_cons (fmt : Format) (fmts : List Format) (f : Bus) (fs : List Bus) :
    marshalFields (fmt :: fmts) (f :: fs) = fmt.image f ++ marshalFields fmts fs := rfl

/-- R106, R110, R111: three binary32 images. -/
theorem marshal_three_bytes (v : Variant) (h : fields v = [.binary32, .binary32, .binary32]) (p : Ports) :
    marshal v p.buses = bytes32 p.encF0 ++ bytes32 p.encF1 ++ bytes32 p.encF2 := by
  simp [marshal, h, Ports.buses]

/-- R107: two binary32 images. -/
theorem marshal_alt_bytes (p : Ports) : marshal .alt p.buses = bytes32 p.encF0 ++ bytes32 p.encF1 := by
  simp [marshal, fields, Ports.buses]

/-- R108: two binary64 images and a binary32 image. -/
theorem marshal_gps_bytes (p : Ports) :
    marshal .gps p.buses = bytes64 p.encF0 ++ bytes64 p.encF1 ++ bytes32 p.encF2 := by
  simp [marshal, fields, Ports.buses]

/-- R109: four binary32 images. -/
theorem marshal_ctl_bytes (p : Ports) :
    marshal .ctl p.buses = bytes32 p.encF0 ++ bytes32 p.encF1 ++ bytes32 p.encF2 ++ bytes32 p.encF3 := by
  simp [marshal, fields, Ports.buses]

/-- The model's header and padded slot are the bytes 0 to 60 written out (R61, R65). -/
theorem frameBody_eq_bodyBytes (c : Config) (f t : Addr) (ty : Byte) (p : List Byte) :
    frameBody c f t ty p = bodyBytes c f t ty p := by
  simp [frameBody, bodyBytes, bytesLe16, octet, pad55]

/-- R132: the body, its integrity byte and `END`. -/
theorem buildFrame_eq_bodyBytes (c : Config) (f t : Addr) (ty : Byte) (p : List Byte) :
    buildFrame c f t ty p = bodyBytes c f t ty p ++ [crc8 c (bodyBytes c f t ty p), c.endByte] := by
  simp [buildFrame, frameBody_eq_bodyBytes]

/-- R132: ENCF of the variant `v` is the codec operation that encodes the payload of `v` under its tag. -/
theorem exec_encfOf (v : Variant) (s : State) :
    exec (encfOf v) s = .next (s.withRes (encodeResult s.cfg s.ports (tag s.cfg v) (marshal v s.ports.buses))) := by
  cases v <;> rfl

/-- R132: ENCF of `v` builds the frame of the payload that `marshal` gives, which always fits the slot. -/
theorem exec_encfOf_encodedAs (v : Variant) {s : State} {payload : List Byte}
    (hp : marshal v s.ports.buses = payload) :
    ∃ t, exec (encfOf v) s = .next t ∧ EncodedAs s t (tag s.cfg v) payload := by
  have hlen := buildFrame_length s.cfg s.ports.encFrom s.ports.encTo (tag s.cfg v) (marshal_length_le v s.ports)
  refine ⟨_, exec_encfOf v s, withRes_onlyRes s _, ?record, ?bytes⟩
  case record =>
    rw [State.withRes_res, encodeResult_core]
    rfl
  case bytes =>
    rw [State.withRes_res, encodeResult_core, bytesVec_toList hlen, buildFrame_eq_bodyBytes, hp]

/-- Settles O15, from the three fields of an Attitude payload. -/
theorem encfAttBuildsTheFrame : Obligations.EncfAttBuildsTheFrame :=
  fun s => exec_encfOf_encodedAs .att (marshal_three_bytes .att rfl s.ports)

/-- Settles O16, from the two fields of an Altitude payload. -/
theorem encfAltBuildsTheFrame : Obligations.EncfAltBuildsTheFrame :=
  fun s => exec_encfOf_encodedAs .alt (marshal_alt_bytes s.ports)

/-- Settles O17, from the three fields of a Gps payload. -/
theorem encfGpsBuildsTheFrame : Obligations.EncfGpsBuildsTheFrame :=
  fun s => exec_encfOf_encodedAs .gps (marshal_gps_bytes s.ports)

/-- Settles O18, from the four fields of a ControlInput payload. -/
theorem encfCtlBuildsTheFrame : Obligations.EncfCtlBuildsTheFrame :=
  fun s => exec_encfOf_encodedAs .ctl (marshal_ctl_bytes s.ports)

/-- Settles O19, from the three fields of a Gyroscope payload. -/
theorem encfGyrBuildsTheFrame : Obligations.EncfGyrBuildsTheFrame :=
  fun s => exec_encfOf_encodedAs .gyr (marshal_three_bytes .gyr rfl s.ports)

/-- Settles O20, from the three fields of an Accelerometer payload. -/
theorem encfAccBuildsTheFrame : Obligations.EncfAccBuildsTheFrame :=
  fun s => exec_encfOf_encodedAs .acc (marshal_three_bytes .acc rfl s.ports)

/-! ### DECF: the frame check and the frame record -/

/-- Reading byte `i` of a fixed-size sequence through its list. -/
theorem toList_getD {n : Nat} (w : Vector Byte n) {i : Nat} (h : i < n) : w.toList.getD i 0 = w[i] := by
  simp [List.getD_eq_getElem?_getD, h]

theorem badSentinel_toList (c : Config) (w : Vector Byte 63) :
    BadSentinel c w.toList ↔ w[0] ≠ c.startByte ∨ w[62] ≠ c.endByte := by
  rw [BadSentinel, toList_getD w (by decide), toList_getD w (by decide)]

theorem badIntegrity_toList (c : Config) (w : Vector Byte 63) :
    BadIntegrity c w.toList ↔ crc8 c (w.toList.take 61) ≠ w[61] := by
  rw [BadIntegrity, toList_getD w (by decide)]

/-- R139: the frame check reports the sentinels first, then the integrity byte. -/
theorem frameCheck_verdict (c : Config) (w : Vector Byte 63) :
    (BadSentinel c w.toList ∧ frameCheck c w = .invalidFrame)
      ∨ (¬BadSentinel c w.toList ∧ BadIntegrity c w.toList ∧ frameCheck c w = .crcMismatch)
      ∨ (Passes c w.toList ∧ frameCheck c w = .ok) := by
  simp only [Passes, badSentinel_toList, badIntegrity_toList, not_or, not_not]
  rcases frameCheck_cases c w with ⟨h, e⟩ | ⟨h0, h62, h, e⟩ | ⟨h0, h62, h, e⟩
  · exact .inl ⟨h, e⟩
  · exact .inr (.inl ⟨⟨h0, h62⟩, h, e⟩)
  · exact .inr (.inr ⟨⟨⟨h0, h62⟩, h⟩, e⟩)

theorem frameCheck_eq_invalidFrame_iff (c : Config) (w : Vector Byte 63) :
    frameCheck c w = .invalidFrame ↔ BadSentinel c w.toList := by
  rcases frameCheck_verdict c w with ⟨hs, e⟩ | ⟨hs, -, e⟩ | ⟨⟨hs, -⟩, e⟩ <;> simp only [e, hs, reduceCtorEq]

theorem frameCheck_eq_crcMismatch_iff (c : Config) (w : Vector Byte 63) :
    frameCheck c w = .crcMismatch ↔ ¬BadSentinel c w.toList ∧ BadIntegrity c w.toList := by
  rcases frameCheck_verdict c w with ⟨hs, e⟩ | ⟨hs, hi, e⟩ | ⟨⟨hs, hi⟩, e⟩ <;>
    simp only [e, hs, reduceCtorEq] <;> tauto

theorem frameCheck_eq_ok_iff_passes (c : Config) (w : Vector Byte 63) :
    frameCheck c w = .ok ↔ Passes c w.toList := by
  rcases frameCheck_verdict c w with ⟨hs, e⟩ | ⟨hs, hi, e⟩ | ⟨⟨hs, hi⟩, e⟩ <;>
    simp only [Passes, e, hs, reduceCtorEq] <;> tauto

/-- Settles O24: the four cases of DECF exclude each other, and a failing one writes `result` alone. -/
theorem decfReportsEachFailureExactly : Obligations.DecfReportsEachFailureExactly := by
  intro s
  refine ⟨_, exec_codec (by decide) s, withRes_onlyRes s _, ?_⟩
  rw [← frameCheck_eq_crcMismatch_iff, ← frameCheck_eq_invalidFrame_iff]
  simp only [State.withRes_res, codecResult]
  rcases decodeFrameResult_cases s.cfg s.ports with ⟨hl, e⟩ | ⟨hl, hv, e⟩ | ⟨hl, hv, e⟩ | ⟨hl, hv, e⟩
  · simp [e, hl, result]
  · simp [e, hl, hv, result]
  · simp [e, hl, hv, result]
  · simp [e, hl, hv]

/-- R140: the data slot is bytes 6 to 60. -/
theorem parse_data (w : Vector Byte 63) :
    (parse w).data = Vector.ofFn fun i : Fin 55 => w.toList.getD (i.val + 6) 0 := by
  ext1 i hi
  rw [Vector.getElem_ofFn, toList_getD w (by omega), parse, bytesVec_getElem (by simp), List.getElem_take,
    List.getElem_drop, Vector.getElem_toList]
  simp only [Nat.add_comm]

/-- R140: the fields of the frame record, each at its own bytes of the window. -/
theorem emit_parse_eq_withFrame (r : Res) (w : Vector Byte 63) : emit r (parse w) = withFrame r w.toList := by
  simp only [emit, withFrame, parse_data, toList_getD w, Nat.reduceLT]
  rfl

/-- R145: DECF of a long enough window that passes the frame check. -/
theorem decodeFrameResult_of_passes {c : Config} {p : Ports} (hlen : 63 ≤ p.winLen.toNat)
    (hpass : Passes c p.win.toList) : decodeFrameResult c p = emit (result 0x4 .ok) (parse p.win) := by
  have hok : frameCheck c p.win = .ok := (frameCheck_eq_ok_iff_passes c p.win).mpr hpass
  rcases decodeFrameResult_cases c p with ⟨hl, -⟩ | ⟨-, hv, -⟩ | ⟨-, hv, -⟩ | ⟨-, -, e⟩
  · omega
  · simp [hok] at hv
  · simp [hok] at hv
  · exact e

/-- Settles O25, from the last case of DECF. -/
theorem decfReturnsTheFrame : Obligations.DecfReturnsTheFrame := by
  intro s hlen hpass
  refine ⟨_, exec_codec (by decide) s, withRes_onlyRes s _, ?_⟩
  simp only [State.withRes_res, codecResult]
  rw [decodeFrameResult_of_passes hlen hpass, emit_parse_eq_withFrame]
  rfl

/-! ### DECP: the unknown type -/

/-- R118: the lookup fails exactly for a byte that is no registered tag. -/
theorem lookup_eq_none_iff (c : Config) (t : Byte) : lookup c t = none ↔ t ∉ (registered c).map (·.tag c) := by
  simp [lookup, List.find?_eq_none]

/-- R147: a failed lookup writes the status alone. -/
theorem decodePayloadResult_of_lookup_none {c : Config} {p : Ports} (h : lookup c p.dpType = none) :
    decodePayloadResult c p = result 0x5 .unknownType := by
  simp [decodePayloadResult, h]

/-- R147: UNKNOWN_TYPE is the status of a failed lookup alone. -/
theorem decodePayloadResult_unknownType_iff (c : Config) (p : Ports) :
    (decodePayloadResult c p).status = .unknownType ↔ lookup c p.dpType = none := by
  rcases decodePayloadResult_cases c p with ⟨h, e⟩ | ⟨x, h, e⟩ | ⟨v, h, e⟩ <;> simp [h, e]

/-- R147: the bytes that are none of the six default tags. -/
theorem not_mem_default_tags_iff (t : Byte) :
    t ∉ ([0x01, 0x02, 0x03, 0x04, 0x05, 0x06] : List Byte) ↔ t = 0 ∨ 7 ≤ t.toNat := by
  revert t
  decide

/-- Settles O26, from the tags of the registered variants. -/
theorem decpReportsUnknownTypeExactly : Obligations.DecpReportsUnknownTypeExactly := by
  intro s
  have hlookup := decodePayloadResult_unknownType_iff s.cfg s.ports
  have htags := hlookup.trans (lookup_eq_none_iff s.cfg s.ports.dpType)
  rw [registered_tags] at htags
  refine ⟨_, exec_codec (by decide) s, withRes_onlyRes s _, htags, ?default, ?record⟩
  case default =>
    intro hc
    refine htags.trans ?_
    rw [hc]
    exact not_mem_default_tags_iff s.ports.dpType
  case record =>
    intro hstatus
    exact decodePayloadResult_of_lookup_none (hlookup.mp hstatus)

/-! ### Illegal words -/

/-- R83 in terms of the fields of the word (R80). -/
theorem illegal_iff (c : Config) (w : OpWord) :
    Illegal c w ↔ 6 ≤ (opField w).toNat
      ∨ ((opField w = 0 ∨ opField w = 2 ∨ opField w = 4 ∨ opField w = 5) ∧ w.extractLsb' 0 12 ≠ 0)
      ∨ (opField w = 1 ∧ selField w ≠ 0)
      ∨ (opField w = 3 ∧ (selField w = 0 ∨ 6 + c.extra.length < (selField w).toNat ∨ immField w ≠ 0)) :=
  Iff.rfl

/-- A mask of ones over a field keeps the field. -/
theorem extractLsb'_and_of_allOnes {n start len : Nat} {m : BitVec n} (h : m.extractLsb' start len = BitVec.allOnes len)
    (w : BitVec n) : (w &&& m).extractLsb' start len = w.extractLsb' start len := by
  rw [BitVec.extractLsb'_and, h, BitVec.and_allOnes]

/-- R81: FEED's row fixes `OP` and `SEL`. -/
theorem feed_row_fields {b : Byte} {w : OpWord} (h : (rowOf (.feed b)).hits w = true) :
    opField w = 1 ∧ selField w = 0 := by
  have hw : w &&& 0xFF00 = 0x1000 := by simpa [rowOf, Row.hits] using h
  constructor
  · rw [opField, ← extractLsb'_and_of_allOnes (m := 0xFF00) (by decide), hw]
    decide
  · rw [selField, ← extractLsb'_and_of_allOnes (m := 0xFF00) (by decide), hw]
    decide

/-- R83: no row of the table hits an illegal word. FEED's row fixes two fields, every other row the whole word. -/
theorem not_illegal_of_decode_op {c : Config} {w : OpWord} {i : Instr} (h : decode w = .op i) : ¬Illegal c w := by
  obtain ⟨-, hhits⟩ := decode_op h
  cases i
  case feed b =>
    obtain ⟨hop, hsel⟩ := feed_row_fields hhits
    simp [illegal_iff, hop, hsel]
  all_goals obtain rfl := (hits_full_mask _ w).mp hhits
  case nop | dreset | decf | decp => simp [Illegal]
  case encfAtt | encfAlt | encfGps | encfCtl | encfGyr | encfAcc => simp [Illegal] <;> omega

/-- R82: no extra variant claims an illegal word: the selector is 0 or beyond the last registered ordinal. -/
theorem extraWord_of_illegal {c : Config} {w : OpWord} (h : Illegal c w) : extraWord c w = none := by
  rw [extraWord, ite_eq_right_iff]
  rintro ⟨hop, himm⟩
  have hsel : selField w = 0 ∨ 6 + c.extra.length < (selField w).toNat := by
    simpa [illegal_iff, hop, himm] using h
  rcases hsel with h0 | hbeyond
  · rw [h0]
    rfl
  · rw [extraOfOrdinal, if_neg (by omega), List.getElem?_eq_none (by omega)]

/-- R29: in a cycle that accepts an operation, the step is the effect of the word presented. -/
theorem step_of_accepts {s : State} (h : Accepts s) : step s = atNextCycle (acceptWord s.ports.opw s) := by
  obtain ⟨hwf, hrst, hvalid⟩ := h
  simp [step, cycle, hwf, hrst, hvalid]

/-- R149: an accepted illegal word writes only its record. -/
theorem step_of_illegal {s : State} (ha : Accepts s) (hi : Illegal s.cfg s.ports.opw) :
    step s = .next (s.withRes (result (opField s.ports.opw) .illegalOperation)).nextCycle := by
  rw [step_of_accepts ha]
  rcases acceptWord_cases s.ports.opw s with ⟨i, hop, -⟩ | ⟨r, e, -, hx, -⟩ | ⟨r, -, -, heq⟩
  · exact absurd hi (not_illegal_of_decode_op hop)
  · simp [extraWord_of_illegal hi] at hx
  · rw [heq]
    rfl

/-- Settles O5, from the step of an illegal word. -/
theorem illegalWordOnlyReportsIllegalOperation : Obligations.IllegalWordOnlyReportsIllegalOperation :=
  fun _ ha hi => ⟨_, step_of_illegal ha hi, rfl, rfl, rfl, rfl⟩

/-- Settles O33: the record of a codec operation and of an illegal word depends on neither `st`, `buf` nor `RES`, since
the configuration and the ports do not. -/
theorem codecOperationsTouchOnlyTheResult : Obligations.CodecOperationsTouchOnlyTheResult := by
  refine ⟨fun s i hi => ?codec, fun s ha hi => ?illegal⟩
  case codec => exact ⟨codecResult s.cfg s.ports i, fun x b q => exec_codec hi _⟩
  case illegal =>
    exact ⟨result (opField s.ports.opw) .illegalOperation, fun x b q =>
      ⟨_, step_of_illegal (s := { s with st := x, buf := b, res := q }) ha hi, rfl, rfl, rfl⟩⟩

end Sys2Proof.Proofs

/-! PROOF. The Streaming Frame Decoder (42_stream_decoder.md R160 to R171). Each branch of FEED is stated once, with its
condition on the valid bytes of `buf`; under the invariant of R26 these branches are all that a FEED can do
(`FeedBranch`). For the resynchronisation of R171 the idea is that a FEED that emits nothing drops a `START` only after
the 63 bytes from it failed the frame check (`Remains`): so the `START` of a frame is still buffered when the frame's
last byte comes. -/

namespace Sys2Proof.Proofs

open Sys2Proof.Machine Sys2Proof.Claims

/-! ### What a FEED leaves -/

theorem nowSeeking_seek (s : State) (r : Res) : NowSeeking s (s.seek.withRes r) := ⟨rfl, rfl, rfl, rfl, rfl⟩

theorem nowHolding_withSfd (s : State) (r : Res) {bs : List Byte} (h : bs.length ≤ bufCap) :
    NowHolding s ((s.withSfd .accumulating (Buf.ofList bs)).withRes r) bs := by
  have hbytes := Buf.ofList_bytes h
  refine ⟨rfl, ?_, hbytes, rfl, rfl⟩
  rw [len_toNat, State.withRes_buf, State.withSfd_buf, hbytes]

theorem nowSeeking_bytes {s t : State} (h : NowSeeking s t) : t.buf.bytes = [] := by
  obtain ⟨-, -, hbytes, -⟩ := h
  exact hbytes

theorem nowSeeking_cfg {s t : State} (h : NowSeeking s t) : t.cfg = s.cfg := by
  obtain ⟨-, -, -, hcfg, -⟩ := h
  exact hcfg

theorem nowHolding_len {s t : State} {bs : List Byte} (h : NowHolding s t bs) : t.len.toNat = bs.length := by
  obtain ⟨-, hlen, -⟩ := h
  exact hlen

theorem nowHolding_bytes {s t : State} {bs : List Byte} (h : NowHolding s t bs) : t.buf.bytes = bs := by
  obtain ⟨-, -, hbytes, -⟩ := h
  exact hbytes

/-- R160: the start of a FEED's result. -/
theorem feedResult_eq_feedRecord (e : Event) (x : Fail) : feedResult e x = feedRecord e x := rfl

theorem reason_ne_overflow (c : Config) (w : List Byte) : reason c w ≠ .overflow := by
  unfold reason
  split <;> decide

/-! ### The branches of FEED -/

section Branches

variable {s : State} {b : Byte}

/-- R161: branch DEFENSIVE, its condition on the valid bytes of `buf`. -/
theorem feed_of_corrupt (h : s.st = .complete ∨ s.st = .reserved
      ∨ (s.st = .accumulating ∧ (s.buf.bytes.length = 0 ∨ 63 ≤ s.buf.bytes.length))) :
    feed b s = feedDefensive s := by
  refine if_pos ?_
  rcases h with h | h | h
  · exact .inl (by simp [h])
  · exact .inl (by simp [h])
  · exact .inr h

theorem feed_of_seeking (hst : s.st = .seeking) : feed b s = feedSeek b s := by
  simpa [hst] using feed_cases b s

/-- R162: branch SEEK at `START`. -/
theorem feed_start (hst : s.st = .seeking) (hb : b = s.cfg.startByte) :
    NowHolding s (feed b s) [b] ∧ (feed b s).res = feedRecord .start .none := by
  rw [feed_of_seeking hst, feedSeek, if_pos hb]
  exact ⟨nowHolding_withSfd s _ (by simp), rfl⟩

/-- R162: branch SEEK at every other byte. -/
theorem feed_discard (hst : s.st = .seeking) (hb : b ≠ s.cfg.startByte) :
    NowSeeking s (feed b s) ∧ (feed b s).res = feedRecord .discard .none := by
  rw [feed_of_seeking hst, feedSeek, if_neg hb]
  exact ⟨nowSeeking_seek s _, rfl⟩

/-- R163: branch APPEND. -/
theorem feed_append (hst : s.st = .accumulating) (h1 : 1 ≤ s.buf.bytes.length) (h61 : s.buf.bytes.length ≤ 61) :
    NowHolding s (feed b s) (s.buf.bytes ++ [b]) ∧ (feed b s).res = feedRecord .append .none := by
  have heq : feed b s = feedAppend (s.buf.bytes ++ [b]) s := by
    rcases feed_cases b s with ⟨h, -⟩ | ⟨h, -⟩ | ⟨-, -, -, heq⟩ | ⟨-, h, -⟩
    · rcases h with ⟨-, h⟩ | ⟨-, h⟩
      · exact absurd hst h
      · omega
    · simp [hst] at h
    · exact heq
    · omega
  rw [heq]
  exact ⟨nowHolding_withSfd s _ (by simp [bufCap]; omega), rfl⟩

/-- R164: the FEED that completes a candidate evaluates the check. -/
theorem feed_of_full (hst : s.st = .accumulating) (hlen : s.buf.bytes.length = 62) :
    feed b s = feedCandidate (s.buf.bytes ++ [b]) s := by
  simpa [hst, hlen] using feed_cases b s

/-- R164: a candidate has the 63 bytes of a frame. -/
theorem candidate_toList (hlen : s.buf.bytes.length = 62) :
    (bytesVec 63 (s.buf.bytes ++ [b])).toList = s.buf.bytes ++ [b] :=
  bytesVec_toList (by simp [hlen])

/-- R165: branch EMIT. -/
theorem feed_emit (hst : s.st = .accumulating) (hlen : s.buf.bytes.length = 62)
    (hpass : Passes s.cfg (s.buf.bytes ++ [b])) :
    NowSeeking s (feed b s) ∧ (feed b s).res = withFrame (feedRecord .emit .none) (s.buf.bytes ++ [b]) := by
  have hok : frameCheck s.cfg (bytesVec 63 (s.buf.bytes ++ [b])) = .ok := by
    rwa [frameCheck_eq_ok_iff_passes, candidate_toList hlen]
  have heq : feed b s = feedEmit (bytesVec 63 (s.buf.bytes ++ [b])) s := by
    rw [feed_of_full hst hlen, feedCandidate, hok]
  rw [heq]
  refine ⟨nowSeeking_seek s _, ?_⟩
  rw [feedEmit, State.withRes_res, emit_parse_eq_withFrame, candidate_toList hlen, feedResult_eq_feedRecord]

/-- R166, R167: the verdict of a rejected candidate is the reason recorded. -/
theorem feed_reject (hst : s.st = .accumulating) (hlen : s.buf.bytes.length = 62)
    (hfail : ¬Passes s.cfg (s.buf.bytes ++ [b])) :
    ∃ r, r.fail = reason s.cfg (s.buf.bytes ++ [b]) ∧ feed b s = feedReject r (s.buf.bytes ++ [b]) s := by
  have hverdict := frameCheck_verdict s.cfg (bytesVec 63 (s.buf.bytes ++ [b]))
  rw [candidate_toList hlen] at hverdict
  rw [feed_of_full hst hlen, feedCandidate]
  rcases hverdict with ⟨hs, e⟩ | ⟨hs, -, e⟩ | ⟨hpass, -⟩
  · exact ⟨.invalidFrame, by rw [reason, if_pos hs]; rfl, by rw [e]⟩
  · exact ⟨.crcMismatch, by rw [reason, if_neg hs]; rfl, by rw [e]⟩
  · exact absurd hpass hfail

/-- R166: branch RESYNC_KEEP, the first `START` of the rest being at index `k`. -/
theorem feed_keep {k : Nat} (hst : s.st = .accumulating) (hlen : s.buf.bytes.length = 62)
    (hfail : ¬Passes s.cfg (s.buf.bytes ++ [b]))
    (hk : ((s.buf.bytes ++ [b]).drop 1).findIdx? (· == s.cfg.startByte) = some k) :
    NowHolding s (feed b s) ((s.buf.bytes ++ [b]).drop (k + 1))
      ∧ (feed b s).res = feedRecord .resyncKeep (reason s.cfg (s.buf.bytes ++ [b])) := by
  obtain ⟨r, hr, heq⟩ := feed_reject hst hlen hfail
  rw [heq, feedReject, hk, ← hr, ← feedResult_eq_feedRecord, Nat.add_comm k 1, ← List.drop_drop]
  exact ⟨nowHolding_withSfd s _ (by simp [hlen, bufCap]; omega), rfl⟩

/-- R167: branch RESYNC_DROP. -/
theorem feed_drop (hst : s.st = .accumulating) (hlen : s.buf.bytes.length = 62)
    (hfail : ¬Passes s.cfg (s.buf.bytes ++ [b]))
    (hk : ((s.buf.bytes ++ [b]).drop 1).findIdx? (· == s.cfg.startByte) = none) :
    NowSeeking s (feed b s)
      ∧ (feed b s).res = feedRecord .resyncDrop (reason s.cfg (s.buf.bytes ++ [b])) := by
  obtain ⟨r, hr, heq⟩ := feed_reject hst hlen hfail
  rw [heq, feedReject, hk, ← hr, ← feedResult_eq_feedRecord]
  exact ⟨nowSeeking_seek s _, rfl⟩

end Branches

/-! ### The search for the next `START` -/

theorem getElem?_eq_some_getD {l : List Byte} {i : Nat} (h : i < l.length) : l[i]? = some (l.getD i 0) := by
  rw [List.getD_eq_getElem l 0 h, List.getElem?_eq_getElem h]

/-- R166: `k` is the smallest index of a `START` in `c[1..63)`. -/
theorem findIdx?_rest_eq_some_iff {c : List Byte} (hlen : c.length = 63) (start : Byte) (k : Nat) :
    (c.drop 1).findIdx? (· == start) = some k
      ↔ k ≤ 61 ∧ c.getD (k + 1) 0 = start ∧ ∀ j < k, c.getD (j + 1) 0 ≠ start := by
  obtain ⟨c0, rest, rfl⟩ := List.exists_cons_of_length_eq_add_one hlen
  have hrest : rest.length = 62 := by simpa using hlen
  simp only [List.drop_one, List.tail_cons, List.getD_cons_succ, List.findIdx?_eq_some_iff_getElem, beq_iff_eq]
  constructor
  · rintro ⟨hk, hstart, hfirst⟩
    refine ⟨by omega, by rwa [List.getD_eq_getElem], fun j hj => ?_⟩
    rw [List.getD_eq_getElem _ _ (by omega)]
    exact hfirst j hj
  · rintro ⟨hk, hstart, hfirst⟩
    refine ⟨by omega, by rwa [List.getD_eq_getElem] at hstart, fun j hj => ?_⟩
    rw [← List.getD_eq_getElem _ 0]
    exact hfirst j hj

/-- R167: no byte of `c[1..63)` is `START`. -/
theorem findIdx?_rest_eq_none_iff {c : List Byte} (hlen : c.length = 63) (start : Byte) :
    (c.drop 1).findIdx? (· == start) = none ↔ ∀ j ≤ 61, c.getD (j + 1) 0 ≠ start := by
  obtain ⟨c0, rest, rfl⟩ := List.exists_cons_of_length_eq_add_one hlen
  have hrest : rest.length = 62 := by simpa using hlen
  simp only [List.drop_one, List.tail_cons, List.getD_cons_succ, List.findIdx?_eq_none_iff, beq_eq_false_iff_ne,
    List.forall_mem_iff_forall_getElem, hrest]
  constructor
  · intro h j hj
    rw [List.getD_eq_getElem _ _ (by omega)]
    exact h j (by omega)
  · intro h j hj
    rw [← List.getD_eq_getElem _ 0]
    exact h j (by omega)

/-! ### The branches as the rules state them -/

/-- Settles O42, from branch DEFENSIVE. -/
theorem feedInACorruptStateClears : Obligations.FeedInACorruptStateClears := by
  intro s b h
  rw [len_toNat] at h
  refine ⟨_, exec_feed b s, ?_⟩
  rw [feed_of_corrupt h]
  exact ⟨nowSeeking_seek s _, rfl⟩

/-- Settles O43, from the two cases of branch SEEK. -/
theorem feedInSeekingLooksForStart : Obligations.FeedInSeekingLooksForStart :=
  fun s b hst => ⟨_, exec_feed b s, feed_start hst, feed_discard hst⟩

/-- Settles O44, from branch APPEND. -/
theorem feedAppendsBeforeTheBufferIsFull : Obligations.FeedAppendsBeforeTheBufferIsFull := by
  intro s b hst h1 h61
  rw [len_toNat] at h1 h61
  obtain ⟨hhold, hres⟩ := feed_append (b := b) hst h1 h61
  refine ⟨_, exec_feed b s, hhold, ?_, hres⟩
  rw [nowHolding_len hhold, len_toNat, List.length_append, List.length_singleton]

/-- Settles O45, from branch EMIT. -/
theorem feedEmitsAValidCandidate : Obligations.FeedEmitsAValidCandidate := by
  intro s b hst hlen hpass
  rw [len_toNat] at hlen
  exact ⟨_, exec_feed b s, feed_emit hst hlen hpass⟩

/-- Settles O46, from branch RESYNC_KEEP: the search for `START` finds the index `k`. -/
theorem feedKeepsFromTheNextStart : Obligations.FeedKeepsFromTheNextStart := by
  intro s b k hst hlen hfail hk hstart hfirst
  rw [len_toNat] at hlen
  have hc : (s.buf.bytes ++ [b]).length = 63 := by simp [hlen]
  obtain ⟨hhold, hres⟩ :=
    feed_keep hst hlen hfail ((findIdx?_rest_eq_some_iff hc _ k).mpr ⟨hk, hstart, hfirst⟩)
  refine ⟨_, exec_feed b s, hhold, ?_, hres⟩
  rw [nowHolding_len hhold, List.length_drop, hc]
  omega

/-- Settles O47, from branch RESYNC_DROP: the search for `START` finds nothing. -/
theorem feedDropsWithoutALaterStart : Obligations.FeedDropsWithoutALaterStart := by
  intro s b hst hlen hfail hnone
  rw [len_toNat] at hlen
  exact ⟨_, exec_feed b s,
    feed_drop hst hlen hfail ((findIdx?_rest_eq_none_iff (by simp [hlen]) _).mpr hnone)⟩

/-! ### FEED under the invariant -/

/-- The branches a FEED of `b` from `s` to `t` can take when `s` meets the invariant of R26 (R162 to R167): the condition
on the valid bytes, and what is left. -/
inductive FeedBranch (s : State) (b : Byte) (t : State) : Prop where
  | start (hbuf : s.buf.bytes = []) (hb : b = s.cfg.startByte)
      (ht : NowHolding s t [b]) (hres : t.res = feedRecord .start .none)
  | discard (hbuf : s.buf.bytes = []) (hb : b ≠ s.cfg.startByte)
      (ht : NowSeeking s t) (hres : t.res = feedRecord .discard .none)
  | append (hhead : s.buf.bytes.head? = some s.cfg.startByte) (hlen : s.buf.bytes.length ≤ 61)
      (ht : NowHolding s t (s.buf.bytes ++ [b])) (hres : t.res = feedRecord .append .none)
  | emit (hlen : s.buf.bytes.length = 62) (hpass : Passes s.cfg (s.buf.bytes ++ [b]))
      (ht : NowSeeking s t) (hres : t.res = withFrame (feedRecord .emit .none) (s.buf.bytes ++ [b]))
  | keep (k : Nat) (hlen : s.buf.bytes.length = 62)
      (hstart : (s.buf.bytes ++ [b]).getD (k + 1) 0 = s.cfg.startByte) (hk : k ≤ 61)
      (hfirst : ∀ j < k, (s.buf.bytes ++ [b]).getD (j + 1) 0 ≠ s.cfg.startByte)
      (ht : NowHolding s t ((s.buf.bytes ++ [b]).drop (k + 1)))
      (hres : t.res = feedRecord .resyncKeep (reason s.cfg (s.buf.bytes ++ [b])))
  | drop (hlen : s.buf.bytes.length = 62)
      (hnone : ∀ j ≤ 61, (s.buf.bytes ++ [b]).getD (j + 1) 0 ≠ s.cfg.startByte)
      (ht : NowSeeking s t) (hres : t.res = feedRecord .resyncDrop (reason s.cfg (s.buf.bytes ++ [b])))

/-- R26 in terms of the valid bytes. -/
theorem sfdInv_cases {s : State} (hinv : SfdInv s) :
    (s.st = .seeking ∧ s.buf.bytes = [])
      ∨ (s.st = .accumulating ∧ s.buf.bytes.length ≤ 62 ∧ s.buf.bytes.head? = some s.cfg.startByte) := by
  obtain ⟨hseek, hacc, hcomplete, hreserved⟩ := hinv
  match hst : s.st with
  | .seeking =>
    have hlen : s.len.toNat = 0 := by rw [hseek hst]; rfl
    rw [len_toNat] at hlen
    exact .inl ⟨rfl, List.eq_nil_of_length_eq_zero hlen⟩
  | .accumulating =>
    obtain ⟨-, h62, hhead⟩ := hacc hst
    rw [len_toNat] at h62
    exact .inr ⟨rfl, h62, hhead⟩
  | .complete => exact absurd hst hcomplete
  | .reserved => exact absurd hst hreserved

theorem feed_branch {s : State} (hinv : SfdInv s) (b : Byte) : FeedBranch s b (feed b s) := by
  rcases sfdInv_cases hinv with ⟨hst, hbuf⟩ | ⟨hst, h62, hhead⟩
  · by_cases hb : b = s.cfg.startByte
    · obtain ⟨ht, hres⟩ := feed_start hst hb
      exact .start hbuf hb ht hres
    · obtain ⟨ht, hres⟩ := feed_discard hst hb
      exact .discard hbuf hb ht hres
  · rcases Nat.le_iff_lt_or_eq.mp h62 with h61 | hlen
    · have h1 : 1 ≤ s.buf.bytes.length := List.length_pos_of_mem (List.mem_of_mem_head? hhead)
      obtain ⟨ht, hres⟩ := feed_append (b := b) hst h1 (Nat.le_of_lt_succ h61)
      exact .append hhead (Nat.le_of_lt_succ h61) ht hres
    · have hc : (s.buf.bytes ++ [b]).length = 63 := by simp [hlen]
      by_cases hpass : Passes s.cfg (s.buf.bytes ++ [b])
      · obtain ⟨ht, hres⟩ := feed_emit hst hlen hpass
        exact .emit hlen hpass ht hres
      · match hfind : ((s.buf.bytes ++ [b]).drop 1).findIdx? (· == s.cfg.startByte) with
        | some k =>
          obtain ⟨hk, hstart, hfirst⟩ := (findIdx?_rest_eq_some_iff hc _ k).mp hfind
          obtain ⟨ht, hres⟩ := feed_keep hst hlen hpass hfind
          exact .keep k hlen hstart hk hfirst ht hres
        | none =>
          obtain ⟨ht, hres⟩ := feed_drop hst hlen hpass hfind
          exact .drop hlen ((findIdx?_rest_eq_none_iff hc _).mp hfind) ht hres

theorem sfdInv_of_nowSeeking {s t : State} (h : NowSeeking s t) : SfdInv t := by
  obtain ⟨hst, hlen, -⟩ := h
  simp [SfdInv, hst, hlen]

theorem sfdInv_of_nowHolding {s t : State} {bs : List Byte} (h : NowHolding s t bs) (h62 : bs.length ≤ 62)
    (hhead : bs.head? = some s.cfg.startByte) : SfdInv t := by
  obtain ⟨hst, hlen, hbytes, hcfg, -⟩ := h
  have h1 : 1 ≤ bs.length := List.length_pos_of_mem (List.mem_of_mem_head? hhead)
  refine ⟨by simp [hst], fun _ => ?_, by simp [hst], by simp [hst]⟩
  rw [hlen, hbytes, hcfg]
  exact ⟨h1, h62, hhead⟩

/-- R169: every branch leaves a state that meets the invariant of R26. -/
theorem FeedBranch.sfdInv {s t : State} {b : Byte} (h : FeedBranch s b t) : SfdInv t := by
  cases h with
  | start _ hb ht => exact sfdInv_of_nowHolding ht (by simp) (by simp [hb])
  | append hhead hlen ht => exact sfdInv_of_nowHolding ht (by simp; omega) (by simp [hhead])
  | keep k hlen hstart hk _ ht =>
    refine sfdInv_of_nowHolding ht (by simp [hlen]) ?_
    rw [List.head?_drop, ← hstart]
    exact getElem?_eq_some_getD (by simp [hlen]; omega)
  | discard _ _ ht | emit _ _ ht | drop _ _ ht => exact sfdInv_of_nowSeeking ht

/-- R169: OVERFLOW is the reason of branch DEFENSIVE alone. -/
theorem FeedBranch.fail_ne_overflow {s t : State} {b : Byte} (h : FeedBranch s b t) : t.res.fail ≠ .overflow := by
  cases h with
  | start _ _ _ hres | discard _ _ _ hres | append _ _ _ hres | emit _ _ _ hres =>
    rw [hres]
    exact Fail.noConfusion
  | keep _ _ _ _ _ _ hres | drop _ _ _ hres =>
    rw [hres]
    exact reason_ne_overflow s.cfg _

/-- Settles O50, from the branches a FEED can take under the invariant. -/
theorem sfdOperationsPreserveTheInvariant : Obligations.SfdOperationsPreserveTheInvariant := by
  intro s hinv
  refine ⟨fun b => ?_, _, exec_dreset s, sfdInv_of_nowSeeking (nowSeeking_seek s _)⟩
  have hbranch := feed_branch hinv b
  exact ⟨_, exec_feed b s, hbranch.sfdInv, hbranch.fail_ne_overflow⟩

/-! ### Bytes dropped without an emission -/

/-- `rest` is what is left of `bs` after bytes were dropped from its front, every `START` among them with the 63 bytes
from it in `bs` (R166, R167). -/
def Remains (c : Config) (bs rest : List Byte) : Prop :=
  ∃ dropped, bs = dropped ++ rest ∧ ∀ j, dropped[j]? = some c.startByte → j + 63 ≤ bs.length

theorem Remains.refl (c : Config) (bs : List Byte) : Remains c bs bs := ⟨[], rfl, by simp⟩

/-- What is left of a stream, one byte further. -/
theorem Remains.snoc {c : Config} {bs buf rest : List Byte} {b : Byte} (h : Remains c bs buf)
    (h' : Remains c (buf ++ [b]) rest) : Remains c (bs ++ [b]) rest := by
  obtain ⟨d, rfl, hd⟩ := h
  obtain ⟨d', hrest, hd'⟩ := h'
  refine ⟨d ++ d', by rw [List.append_assoc, hrest, List.append_assoc], fun j hj => ?_⟩
  simp only [List.length_append, List.length_singleton] at hd hd' ⊢
  rw [List.getElem?_append] at hj
  split at hj
  · have := hd j hj
    omega
  · have := hd' _ hj
    omega

/-- A candidate keeps the bytes from its first `START` after byte 0, or from its end. -/
theorem remains_drop_candidate {c : Config} {w : List Byte} {n : Nat} (hw : w.length = 63)
    (hfirst : ∀ j < n, w.getD (j + 1) 0 ≠ c.startByte) : Remains c w (w.drop (n + 1)) := by
  refine ⟨w.take (n + 1), (List.take_append_drop _ _).symm, fun j hj => ?_⟩
  cases j with
  | zero => omega
  | succ j =>
    rw [List.getElem?_take] at hj
    split at hj
    · rename_i hjn
      exact absurd (by rw [List.getD_eq_getElem?_getD, hj]; rfl) (hfirst j (Nat.lt_of_succ_lt_succ hjn))
    · simp at hj

/-- A FEED that does not emit drops a `START` only with its 63 bytes. -/
theorem FeedBranch.emits_or_remains {s t : State} {b : Byte} (h : FeedBranch s b t) :
    (s.buf.bytes.length = 62 ∧ Passes s.cfg (s.buf.bytes ++ [b]))
      ∨ (t.res.frameOk = false ∧ Remains s.cfg (s.buf.bytes ++ [b]) t.buf.bytes) := by
  cases h with
  | start hbuf _ ht hres =>
    rw [hres, nowHolding_bytes ht, hbuf]
    exact .inr ⟨rfl, .refl _ _⟩
  | discard hbuf hb ht hres =>
    rw [hres, nowSeeking_bytes ht, hbuf]
    exact .inr ⟨rfl, [b], rfl, fun j hj => absurd (List.mem_singleton.mp (List.mem_of_getElem? hj)).symm hb⟩
  | append _ _ ht hres =>
    rw [hres, nowHolding_bytes ht]
    exact .inr ⟨rfl, .refl _ _⟩
  | emit hlen hpass => exact .inl ⟨hlen, hpass⟩
  | keep k hlen _ hk hfirst ht hres =>
    rw [hres, nowHolding_bytes ht]
    exact .inr ⟨rfl, remains_drop_candidate (by simp [hlen]) hfirst⟩
  | drop hlen hnone ht hres =>
    have hw : (s.buf.bytes ++ [b]).length = 63 := by simp [hlen]
    have hrem := remains_drop_candidate (n := 62) hw fun j hj => hnone j (Nat.le_of_lt_succ hj)
    rw [List.drop_of_length_le hw.le] at hrem
    rw [hres, nowSeeking_bytes ht]
    exact .inr ⟨rfl, hrem⟩

/-- A last 62 bytes that begin with `START` are still there, if no more than 62 bytes are. -/
theorem Remains.eq_of_head_start {c : Config} {pre w rest : List Byte} (h : Remains c (pre ++ w) rest)
    (hhead : w.head? = some c.startByte) (hw : w.length = 62) (hrest : rest.length ≤ 62) : rest = w := by
  obtain ⟨d, heq, hd⟩ := h
  have hlen := congrArg List.length heq
  simp only [List.length_append] at hlen hd
  have hle : d.length ≤ pre.length := by
    by_contra hlt
    have hget : d[pre.length]? = some c.startByte := by
      rw [← List.getElem?_append_left (l₂ := rest) (by omega), ← heq, List.getElem?_append_right le_rfl, Nat.sub_self,
        ← List.head?_eq_getElem?, hhead]
    have := hd _ hget
    omega
  exact (List.append_inj_right heq (by omega)).symm

/-! ### Streams -/

theorem feedStream_cons (s : State) (b : Byte) (bs : List Byte) :
    feedStream s (b :: bs) = ((feed b s).res :: (feedStream (feed b s) bs).1, (feedStream (feed b s) bs).2) := rfl

theorem feedStream_append (s : State) (as bs : List Byte) :
    feedStream s (as ++ bs)
      = ((feedStream s as).1 ++ (feedStream (feedStream s as).2 bs).1, (feedStream (feedStream s as).2 bs).2) := by
  induction as generalizing s with
  | nil => rfl
  | cons a as ih => simp only [List.cons_append, feedStream_cons, ih]

theorem feedStream_length (s : State) (bs : List Byte) : (feedStream s bs).1.length = bs.length := by
  induction bs generalizing s with
  | nil => rfl
  | cons b bs ih => rw [feedStream_cons, List.length_cons, List.length_cons, ih]

/-- No 63 bytes of `bs` that begin at a `START` pass the frame check: the junk condition of R171. -/
def NoFrame (c : Config) (bs : List Byte) : Prop :=
  ∀ p, p + 63 ≤ bs.length → bs[p]? = some c.startByte → ¬Passes c ((bs.drop p).take 63)

/-- Windows inside a first part of a stream are windows of the stream. -/
theorem noFrame_first {c : Config} {as bs : List Byte}
    (h : ∀ p, p + 63 ≤ as.length → (as ++ bs)[p]? = some c.startByte → ¬Passes c (((as ++ bs).drop p).take 63)) :
    NoFrame c as := by
  intro p hp hstart
  have hfail := h p hp (by rwa [List.getElem?_append_left (by omega)])
  rwa [List.drop_append_of_le_length (by omega), List.take_append_of_le_length (by rw [List.length_drop]; omega)] at hfail

/-- Windows inside the last part of a stream are windows of the stream. -/
theorem noFrame_last {c : Config} {as bs : List Byte}
    (h : ∀ p, as.length ≤ p → p + 63 ≤ (as ++ bs).length → (as ++ bs)[p]? = some c.startByte →
      ¬Passes c (((as ++ bs).drop p).take 63)) : NoFrame c bs := by
  intro p hp hstart
  have hfail := h (as.length + p) (Nat.le_add_right _ _) (by rw [List.length_append]; omega)
    (by rwa [List.getElem?_append_right (by omega), Nat.add_sub_cancel_left])
  rwa [List.drop_length_add_append] at hfail

theorem NoFrame.of_append_left {c : Config} {as bs : List Byte} (h : NoFrame c (as ++ bs)) : NoFrame c as :=
  noFrame_first fun p hp => h p (by rw [List.length_append]; omega)

theorem NoFrame.of_append_right {c : Config} {as bs : List Byte} (h : NoFrame c (as ++ bs)) : NoFrame c bs :=
  noFrame_last fun p _ => h p

/-- R139: bytes that pass the frame check begin with `START`. -/
theorem head?_of_passes {c : Config} {w : List Byte} (hw : 0 < w.length) (hpass : Passes c w) :
    w.head? = some c.startByte := by
  obtain ⟨hsentinel, -⟩ := hpass
  have hstart : w.getD 0 0 = c.startByte := not_not.mp (not_or.mp hsentinel).1
  rw [List.head?_eq_getElem?, getElem?_eq_some_getD hw, hstart]

/-- A candidate in a stream without a frame fails the check. -/
theorem NoFrame.not_passes {c : Config} {w : List Byte} (h : NoFrame c w) (hw : w.length = 63) : ¬Passes c w := by
  intro hpass
  have hstart := head?_of_passes (by omega) hpass
  rw [List.head?_eq_getElem?] at hstart
  exact h 0 (by omega) hstart (by rwa [List.drop_zero, List.take_of_length_le hw.le])

/-- A stream without a frame in it emits nothing, and no `START` is lost before its 63 bytes came. -/
theorem feedStream_of_noFrame {s : State} (hinv : SfdInv s) (hbuf : s.buf.bytes = []) {bs : List Byte}
    (hno : NoFrame s.cfg bs) :
    SfdInv (feedStream s bs).2 ∧ (feedStream s bs).2.cfg = s.cfg
      ∧ Remains s.cfg bs (feedStream s bs).2.buf.bytes ∧ ∀ r ∈ (feedStream s bs).1, r.frameOk = false := by
  induction bs using List.reverseRecOn with
  | nil => exact ⟨hinv, rfl, by rw [feedStream, hbuf]; exact .refl _ _, by simp [feedStream]⟩
  | append_singleton bs b ih =>
    obtain ⟨hinv', hcfg, hrem, hquiet⟩ := ih hno.of_append_left
    have hbranch := feed_branch hinv' b
    have hstep := hbranch.emits_or_remains
    rw [hcfg] at hstep
    obtain ⟨hlen, hpass⟩ | ⟨hr, hrem'⟩ := hstep
    · obtain ⟨d, heq, -⟩ := hrem
      rw [heq, List.append_assoc] at hno
      exact absurd hpass (hno.of_append_right.not_passes (by simp [hlen]))
    · obtain ⟨hcfg', -⟩ := feed_frame b (feedStream s bs).2
      rw [feedStream_append]
      refine ⟨hbranch.sfdInv, hcfg'.trans hcfg, hrem.snoc hrem', fun r hr' => ?_⟩
      rcases List.mem_append.mp hr' with hr' | hr'
      · exact hquiet r hr'
      · rwa [List.mem_singleton.mp hr']

/-- R171: after junk, the first 62 bytes of a frame are the candidate. -/
theorem feedStream_holds_candidate {s : State} (hinv : SfdInv s) (hbuf : s.buf.bytes = []) {j w : List Byte}
    (hw : w.length = 62) (hhead : w.head? = some s.cfg.startByte) (hno : NoFrame s.cfg (j ++ w)) :
    (feedStream s (j ++ w)).2.st = .accumulating ∧ (feedStream s (j ++ w)).2.buf.bytes = w := by
  obtain ⟨hinv', -, hrem, -⟩ := feedStream_of_noFrame hinv hbuf hno
  rcases sfdInv_cases hinv' with ⟨-, hempty⟩ | ⟨hst, h62, -⟩
  · rw [hempty] at hrem
    simp [← hrem.eq_of_head_start hhead hw (Nat.zero_le _)] at hw
  · exact ⟨hst, hrem.eq_of_head_start hhead hw h62⟩

/-- R171: the frame `w ++ [b]` between junk `j1` and `j2` is emitted at its last byte, and nothing else is. -/
theorem feedStream_of_frame_in_junk {s : State} (hinv : SfdInv s) (hbuf : s.buf.bytes = []) {j1 w j2 : List Byte}
    {b : Byte} (hw : w.length = 62) (hpass : Passes s.cfg (w ++ [b])) (h1 : NoFrame s.cfg (j1 ++ w))
    (h2 : NoFrame s.cfg j2) :
    ∃ rs1 rs2, (feedStream s (j1 ++ w ++ b :: j2)).1 = rs1 ++ withFrame (feedRecord .emit .none) (w ++ [b]) :: rs2
      ∧ rs1.length = j1.length + 62 ∧ (∀ r ∈ rs1, r.frameOk = false) ∧ ∀ r ∈ rs2, r.frameOk = false := by
  have hhead : w.head? = some s.cfg.startByte := by
    rw [← head?_of_passes (by simp) hpass, List.head?_append_of_ne_nil _ (List.ne_nil_of_length_pos (by omega))]
  obtain ⟨-, hcfg, -, hquiet1⟩ := feedStream_of_noFrame hinv hbuf h1
  obtain ⟨hst, hheld⟩ := feedStream_holds_candidate hinv hbuf hw hhead h1
  obtain ⟨hseek, hres⟩ := feed_emit (b := b) hst (by rw [hheld, hw]) (by rwa [hheld, hcfg])
  obtain ⟨-, -, -, hquiet2⟩ := feedStream_of_noFrame (sfdInv_of_nowSeeking hseek) (nowSeeking_bytes hseek)
    (by rwa [nowSeeking_cfg hseek, hcfg])
  refine ⟨_, _, ?_, ?_, hquiet1, hquiet2⟩
  · rw [feedStream_append, feedStream_cons, hres, hheld]
  · rw [feedStream_length, List.length_append, hw]

/-- A single result with a frame among results without one is found by its index. -/
theorem frameOk_iff_index {rs1 rs2 : List Res} {e : Res} (he : e.frameOk = true) (h1 : ∀ r ∈ rs1, r.frameOk = false)
    (h2 : ∀ r ∈ rs2, r.frameOk = false) {i : Nat} {r : Res} (hr : (rs1 ++ e :: rs2)[i]? = some r) :
    r.frameOk = true ↔ i = rs1.length := by
  rcases lt_trichotomy i rs1.length with hlt | rfl | hgt
  · rw [List.getElem?_append_left hlt] at hr
    simp [h1 r (List.mem_of_getElem? hr), hlt.ne]
  · rw [List.getElem?_append_right le_rfl, Nat.sub_self, List.getElem?_cons_zero, Option.some_inj] at hr
    simp [← hr, he]
  · rw [List.getElem?_append_right hgt.le, ← Nat.sub_add_cancel (Nat.sub_pos_of_lt hgt), List.getElem?_cons_succ] at hr
    simp [h2 r (List.mem_of_getElem? hr), hgt.ne']

/-- Settles O56, from the two junk conditions: a window inside the stream up to the frame's last byte begins in `J1`, and
the windows inside `J2` fail. -/
theorem resynchronisationEmitsExactlyTheFrame : Obligations.ResynchronisationEmitsExactlyTheFrame := by
  intro s j1 j2 f hst hlen hpass hjunk1 hjunk2
  have hinv : SfdInv s := by simp [SfdInv, hst, hlen]
  have hbuf : s.buf.bytes = [] := List.eq_nil_of_length_eq_zero (by rw [← len_toNat, hlen]; rfl)
  have hf63 : f.toList.length = 63 := by simp
  generalize f.toList = fs at *
  obtain rfl | ⟨w, b, rfl⟩ := List.eq_nil_or_concat' fs
  · simp at hf63
  have hw : w.length = 62 := by simpa using hf63
  have h2 : NoFrame s.cfg j2 := noFrame_last fun p hp => hjunk2 p (by rwa [List.length_append, hf63] at hp)
  have hstream : j1 ++ (w ++ [b]) ++ j2 = j1 ++ w ++ b :: j2 := by simp
  rw [hstream] at hjunk1 ⊢
  have h1 : NoFrame s.cfg (j1 ++ w) := noFrame_first fun p hp => hjunk1 p (by rw [List.length_append] at hp; omega)
  obtain ⟨rs1, rs2, heq, hrs1, hquiet1, hquiet2⟩ := feedStream_of_frame_in_junk hinv hbuf hw hpass h1 h2
  refine ⟨?length, fun i r hr => ?only, ?emitted⟩
  case length => rw [feedStream_length, ← hstream, List.length_append, List.length_append, hf63]
  case only =>
    rw [heq] at hr
    rw [frameOk_iff_index rfl hquiet1 hquiet2 hr, hrs1]
  case emitted => rw [heq, ← hrs1, List.getElem?_append_right le_rfl, Nat.sub_self, List.getElem?_cons_zero]

end Sys2Proof.Proofs

/-! PROOF. The operation word (30_encoding.md R80 to R84). A word is its three fields; the decoder and the encoder are
inverse; so a word is the word of an operation, the word of an extra variant, or illegal. -/

namespace Sys2Proof.Proofs

open Sys2Proof.Machine Sys2Proof.Claims

/-! ### The fields of a word -/

@[simp] theorem opField_wordOf (op sel : BitVec 4) (imm : Byte) : opField (wordOf op sel imm) = op :=
  (BitVec.extractLsb'_append_eq_of_le (xhi := op ++ sel) (xlo := imm) (by decide)).trans
    BitVec.extractLsb'_append_eq_left

@[simp] theorem selField_wordOf (op sel : BitVec 4) (imm : Byte) : selField (wordOf op sel imm) = sel :=
  (BitVec.extractLsb'_append_eq_of_le (xhi := op ++ sel) (xlo := imm) (by decide)).trans
    BitVec.extractLsb'_append_eq_right

@[simp] theorem immField_wordOf (op sel : BitVec 4) (imm : Byte) : immField (wordOf op sel imm) = imm :=
  BitVec.extractLsb'_append_eq_right (a := op ++ sel)

/-- The upper byte of a word is `OP` and `SEL` (R80). -/
theorem upperByte_wordOf (op sel : BitVec 4) (imm : Byte) : (wordOf op sel imm).extractLsb' 8 8 = op ++ sel :=
  BitVec.extractLsb'_append_eq_left (b := imm)

/-- A word is its three fields (R80). -/
theorem wordOf_fields (w : OpWord) : wordOf (opField w) (selField w) (immField w) = w := by
  rw [wordOf, opField, selField, immField, BitVec.extractLsb'_append_extractLsb'_eq_extractLsb' (by omega),
    BitVec.extractLsb'_append_extractLsb'_eq_extractLsb' (by omega)]
  exact BitVec.extractLsb'_eq_self

theorem eq_wordOf {w : OpWord} {op sel : BitVec 4} {imm : Byte} (hop : opField w = op) (hsel : selField w = sel)
    (himm : immField w = imm) : w = wordOf op sel imm := by
  rw [← hop, ← hsel, ← himm, wordOf_fields]

/-- The operand bits `opw[11:0]` are `SEL` and `IMM` (R80). -/
theorem operandBits_eq_zero {w : OpWord} (h : w.extractLsb' 0 12 = 0) : selField w = 0 ∧ immField w = 0 := by
  constructor
  · rw [selField, ← BitVec.extractLsb'_extractLsb'_of_le (len' := 12) (by decide), h]
    rfl
  · rw [immField, ← BitVec.extractLsb'_extractLsb'_of_le (len' := 12) (by decide), h]
    rfl

/-! ### The decoder and the encoder -/

/-- R84: a candidate's row hits only the candidate's own word. -/
theorem encode_of_hits {w : OpWord} {i : Instr} (hi : i ∈ candidates w) (hhits : (rowOf i).hits w = true) :
    encode i = w := by
  cases i
  case feed b =>
    obtain rfl : b = immField w := by simpa [candidates] using hi
    obtain ⟨hop, hsel⟩ := feed_row_fields hhits
    exact (eq_wordOf hop hsel rfl).symm
  all_goals
    obtain rfl := (hits_full_mask _ w).mp hhits
    rfl

/-- Settles O3: the decoder answers a candidate whose row hits the word. -/
theorem encodeOfDecodeIsTheWord : Obligations.EncodeOfDecodeIsTheWord := by
  intro w i h
  obtain ⟨hi, hhits⟩ := decode_op h
  exact encode_of_hits hi hhits

/-- R81: NOP's row, the only one before FEED's, hits no FEED word. -/
theorem nop_row_misses_feed (b : Byte) : (rowOf .nop).hits (encode (.feed b)) = false := by
  refine Bool.eq_false_iff.mpr fun h => ?_
  have hop := congrArg opField ((hits_full_mask _ _).mp h)
  rw [encode, opField_wordOf] at hop
  exact absurd hop (by decide)

theorem decode_encode (i : Instr) : decode (encode i) = .op i := by
  cases i
  case feed b =>
    have hrow : (rowOf (.feed b)).hits (encode (.feed b)) = true := Laws.RowMatch.feed b
    have himm : immField (encode (.feed b)) = b := immField_wordOf _ _ b
    simp [decode, candidates, nop_row_misses_feed, himm, hrow]
  all_goals decide

/-- R81: the number of a word decodes as the word. -/
theorem decodeTableWord_toNat {w : OpWord} {i : Instr} (h : decode w = .op i) : decodeTableWord 16 w.toNat = some i := by
  rw [decodeTableWord, Nat.mod_eq_of_lt w.isLt, BitVec.ofNat_toNat, BitVec.setWidth_eq, h]

/-- Settles O2, from the decoding of the operation's own word. -/
theorem decodeOfEncodeIsTheOperation : Obligations.DecodeOfEncodeIsTheOperation :=
  fun i _ => ⟨decode_encode i, decodeTableWord_toNat (decode_encode i)⟩

theorem encode_inj {i j : Instr} (h : encode i = encode j) : i = j := by
  have hdecode := congrArg decode h
  rw [decode_encode, decode_encode] at hdecode
  exact Decoded.op.inj hdecode

/-- Settles O1: two illegal words, and the words of seven operations. -/
theorem tableWordsDecodeToTheirOperations : Obligations.TableWordsDecodeToTheirOperations :=
  ⟨decode_encode .nop, decode_encode (.feed 0xA7), decode_encode .dreset, decode_encode .encfAtt, decode_encode .encfGps,
    decode_encode .decf, decode_encode .decp, by decide, by decide⟩

/-! ### The three kinds of word -/

theorem not_illegal_encode (c : Config) (i : Instr) : ¬Illegal c (encode i) := not_illegal_of_decode_op (decode_encode i)

/-- R82: the word of an extra variant is no row's: its ordinal is 7 or more. -/
theorem extraWord_encode (c : Config) (i : Instr) : extraWord c (encode i) = none := by
  cases i
  case feed b => simp [extraWord, encode]
  all_goals rfl

/-- R82: an extra variant claims the word of its ordinal. -/
theorem extraWord_wordOf (c : Config) {sel : BitVec 4} (h : 7 ≤ sel.toNat) :
    extraWord c (wordOf 3 sel 0) = c.extra[sel.toNat - 7]? := by
  simp [extraWord, extraOfOrdinal, Nat.not_lt.mpr h]

/-- R83: a word that is not illegal is the word of an operation, or an extra variant claims it. -/
theorem encode_or_extraWord_of_not_illegal {c : Config} {w : OpWord} (h : ¬Illegal c w) :
    (∃ i, w = encode i) ∨ ∃ e, extraWord c w = some e := by
  simp only [illegal_iff, not_or, not_and, not_le, ne_eq, not_not] at h
  obtain ⟨hop6, hzero, hfeed, hencf⟩ := h
  have hop : opField w = 0 ∨ opField w = 1 ∨ opField w = 2 ∨ opField w = 3 ∨ opField w = 4 ∨ opField w = 5 := by
    bv_omega
  rcases hop with hop | hop | hop | hop | hop | hop
  · obtain ⟨hsel, himm⟩ := operandBits_eq_zero (hzero (by simp [hop]))
    exact .inl ⟨.nop, eq_wordOf hop hsel himm⟩
  · exact .inl ⟨.feed (immField w), eq_wordOf hop (hfeed hop) rfl⟩
  · obtain ⟨hsel, himm⟩ := operandBits_eq_zero (hzero (by simp [hop]))
    exact .inl ⟨.dreset, eq_wordOf hop hsel himm⟩
  · obtain ⟨hsel0, hlen, himm⟩ := hencf hop
    rcases Nat.lt_or_ge (selField w).toNat 7 with hlt | hge
    · have hsel : selField w = 1 ∨ selField w = 2 ∨ selField w = 3 ∨ selField w = 4 ∨ selField w = 5
          ∨ selField w = 6 := by bv_omega
      rcases hsel with hsel | hsel | hsel | hsel | hsel | hsel
      · exact .inl ⟨.encfAtt, eq_wordOf hop hsel himm⟩
      · exact .inl ⟨.encfAlt, eq_wordOf hop hsel himm⟩
      · exact .inl ⟨.encfGps, eq_wordOf hop hsel himm⟩
      · exact .inl ⟨.encfCtl, eq_wordOf hop hsel himm⟩
      · exact .inl ⟨.encfGyr, eq_wordOf hop hsel himm⟩
      · exact .inl ⟨.encfAcc, eq_wordOf hop hsel himm⟩
    · right
      rw [eq_wordOf hop rfl himm, extraWord_wordOf c hge]
      exact ⟨_, List.getElem?_eq_getElem (by omega)⟩
  · obtain ⟨hsel, himm⟩ := operandBits_eq_zero (hzero (by simp [hop]))
    exact .inl ⟨.decf, eq_wordOf hop hsel himm⟩
  · obtain ⟨hsel, himm⟩ := operandBits_eq_zero (hzero (by simp [hop]))
    exact .inl ⟨.decp, eq_wordOf hop hsel himm⟩

/-- The upper byte of a word tells its `OP` and `SEL` (R80). -/
theorem upperByte_eq_iff {w : OpWord} {op sel : BitVec 4} :
    w.extractLsb' 8 8 = op ++ sel ↔ opField w = op ∧ selField w = sel := by
  have hw : w.extractLsb' 8 8 = opField w ++ selField w := by
    conv_lhs => rw [← wordOf_fields w, upperByte_wordOf]
  rw [hw]
  constructor
  · intro h
    have hop := congrArg (BitVec.extractLsb' 4 4) h
    have hsel := congrArg (BitVec.extractLsb' 0 4) h
    rw [BitVec.extractLsb'_append_eq_left, BitVec.extractLsb'_append_eq_left] at hop
    rw [BitVec.extractLsb'_append_eq_right, BitVec.extractLsb'_append_eq_right] at hsel
    exact ⟨hop, hsel⟩
  · rintro ⟨rfl, rfl⟩
    rfl

/-- R91: the words of FEED and DRESET, as the statements write them. -/
theorem sfdWord_iff (w : OpWord) :
    w.extractLsb' 8 8 = 0x10 ∨ w = 0x2000 ↔ (∃ b, w = encode (.feed b)) ∨ w = encode .dreset := by
  refine or_congr ⟨fun h => ?_, ?_⟩ Iff.rfl
  · obtain ⟨hop, hsel⟩ := upperByte_eq_iff (op := 1) (sel := 0) |>.mp h
    exact ⟨immField w, eq_wordOf hop hsel rfl⟩
  · rintro ⟨b, rfl⟩
    exact upperByte_wordOf _ _ b

end Sys2Proof.Proofs

/-! PROOF. The step (10_state.md R26, R29, R34, R36; 30_encoding.md R91, R92; 70_reset_and_hazards.md R231). What an
accepted word does is said once, one case per kind of word (`WordEffect`), and so is what a step can do
(`step_effect_cases`); a statement about a step is then one case per effect. -/

namespace Sys2Proof.Proofs

open Sys2Proof.Machine Sys2Proof.Claims

/-! ### What an accepted word does -/

/-- What the accepted word `w` does to `s`, the next cycle apart: the operation of its row (R81), ENCF of an extra variant
(R82, R119), or the record of an illegal word (R149). -/
inductive WordEffect (w : OpWord) (s : State) : State → Prop where
  | codec (i : Instr) (hi : i ∈ codecOps) (hw : w = encode i) :
      WordEffect w s (s.withRes (codecResult s.cfg s.ports i))
  | feed (b : Byte) (hw : w = encode (.feed b)) : WordEffect w s (feed b s)
  | dreset (hw : w = encode .dreset) : WordEffect w s (s.seek.withRes { result 0x2 .ok with event := .cleared })
  | extra (e : ExtraVariant) (hw : extraWord s.cfg w = some e) :
      WordEffect w s (s.withRes (result 0x3 .payloadTooLarge))
  | illegal (hw : Illegal s.cfg w) : WordEffect w s (s.withRes (result (opField w) .illegalOperation))

theorem exec_effect (i : Instr) (s : State) : ∃ u, exec i s = .next u ∧ WordEffect (encode i) s u := by
  rcases instr_cases i with hi | ⟨b, rfl⟩ | rfl
  · exact ⟨_, exec_codec hi s, .codec i hi rfl⟩
  · exact ⟨_, exec_feed b s, .feed b rfl⟩
  · exact ⟨_, exec_dreset s, .dreset rfl⟩

theorem exec_extra (e : ExtraVariant) (s : State) :
    execEncfExtra e s = .next (s.withRes (result 0x3 .payloadTooLarge)) := by
  rw [execEncfExtra, encodeResult_extra]

theorem acceptWord_effect (w : OpWord) (s : State) : ∃ u, acceptWord w s = .next u ∧ WordEffect w s u := by
  rcases acceptWord_cases w s with ⟨i, hdecode, heq⟩ | ⟨r, e, -, hextra, heq⟩ | ⟨r, hdecode, hextra, heq⟩
  · obtain rfl := encodeOfDecodeIsTheWord w i hdecode
    rw [heq]
    exact exec_effect i s
  · exact ⟨_, heq.trans (exec_extra e s), .extra e hextra⟩
  · refine ⟨_, heq, .illegal ?_⟩
    by_contra hill
    rcases encode_or_extraWord_of_not_illegal hill with ⟨i, rfl⟩ | ⟨e, he⟩
    · simp [decode_encode] at hdecode
    · simp [hextra] at he

/-- R29: an accepted word takes its effect, and the host's next values are presented. -/
theorem step_effect {s : State} (h : Accepts s) :
    ∃ u, step s = .next u.nextCycle ∧ WordEffect s.ports.opw s u := by
  obtain ⟨u, heq, heffect⟩ := acceptWord_effect s.ports.opw s
  exact ⟨u, by rw [step_of_accepts h, heq]; rfl, heffect⟩

theorem effect_of_step {s t : State} (h : Accepts s) (hstep : step s = .next t) :
    ∃ u, t = u.nextCycle ∧ WordEffect s.ports.opw s u := by
  obtain ⟨u, heq, heffect⟩ := step_effect h
  exact ⟨u, Host.Outcome.next.inj (hstep.symm.trans heq), heffect⟩

/-- What one step can do (R29, R231): reset, nothing, or the effect of an accepted word. -/
theorem step_effect_cases {s t : State} (h : step s = .next t) :
    (s.ports.rst = true ∧ t = s.resetBlock.nextCycle) ∨ t = s.nextCycle
      ∨ (Accepts s ∧ ∃ u, t = u.nextCycle ∧ WordEffect s.ports.opw s u) := by
  obtain ⟨hwf, ⟨hrst, ht⟩ | ⟨-, -, ht⟩ | ⟨hrst, hvalid, -⟩⟩ := step_cases h
  · exact .inl ⟨hrst, ht⟩
  · exact .inr (.inl ht)
  · exact .inr (.inr ⟨⟨hwf, hrst, hvalid⟩, effect_of_step ⟨hwf, hrst, hvalid⟩ h⟩)

theorem step_of_not_wf {s : State} (h : ¬s.cfg.wf = true) : step s = .refused .configIllFormed := if_neg h

theorem step_of_reset {s : State} (hwf : s.cfg.wf = true) (hrst : s.ports.rst = true) :
    step s = .next s.resetBlock.nextCycle := by
  simp [step, cycle, hwf, hrst]

theorem step_of_idle {s : State} (hwf : s.cfg.wf = true) (hrst : s.ports.rst = false)
    (hvalid : s.ports.opValid = false) : step s = .next s.nextCycle := by
  simp [step, cycle, hwf, hrst, hvalid]

/-- R200: a step of a well-formed configuration always goes on. -/
theorem step_total {s : State} (hwf : s.cfg.wf = true) : ∃ t, step s = .next t := by
  match hrst : s.ports.rst, hvalid : s.ports.opValid with
  | true, _ => exact ⟨_, step_of_reset hwf hrst⟩
  | false, false => exact ⟨_, step_of_idle hwf hrst hvalid⟩
  | false, true =>
    obtain ⟨u, heq, -⟩ := step_effect ⟨hwf, hrst, hvalid⟩
    exact ⟨_, heq⟩

/-- Settles O4, from the step of an accepted word. -/
theorem stepRunsTheDecodedOperation : Obligations.StepRunsTheDecodedOperation := by
  intro s i haccepts hdecode _
  obtain ⟨t, hexec, -⟩ := exec_effect i s
  refine ⟨t, hexec, ?_⟩
  rw [step_of_accepts haccepts, acceptWord, hdecode]
  exact congrArg atNextCycle hexec

/-- Settles O9: reset is the first branch of a cycle. -/
theorem resetWinsAndGivesTheResetValues : Obligations.ResetWinsAndGivesTheResetValues :=
  fun _ hwf hrst => ⟨_, step_of_reset hwf hrst, rfl, rfl, rfl, rfl, rfl, rfl, rfl, rfl⟩

/-- Settles O10, field by field. -/
theorem resetStateHoldsTheSpecValues : Obligations.ResetStateHoldsTheSpecValues :=
  ⟨rfl, rfl, rfl, rfl, rfl, rfl, rfl, rfl, rfl, by decide, by decide, by decide⟩

/-- Settles O11, from the last branch of a cycle. -/
theorem idleCycleHoldsTheState : Obligations.IdleCycleHoldsTheState :=
  fun _ hwf hrst hvalid => ⟨_, step_of_idle hwf hrst hvalid, rfl, rfl, rfl, rfl⟩

/-! ### The configuration -/

/-- No word writes the configuration or the host's inputs (R36). -/
theorem WordEffect.sameInputs {w : OpWord} {s u : State} (h : WordEffect w s u) : SameInputs s u := by
  cases h with
  | feed b => exact feed_frame b s
  | codec | dreset | extra | illegal => exact ⟨rfl, rfl⟩

/-- Settles O12, case by case of what a step can do. -/
theorem everyStepKeepsTheConfiguration : Obligations.EveryStepKeepsTheConfiguration := by
  intro s t hstep
  obtain ⟨-, rfl⟩ | rfl | ⟨-, u, rfl, heffect⟩ := step_effect_cases hstep
  · exact ⟨rfl, rfl⟩
  · exact ⟨rfl, rfl⟩
  · obtain ⟨hcfg, hcycles⟩ := heffect.sameInputs
    exact ⟨hcfg, congrArg List.tail hcycles⟩

/-- The build-time check, its conditions written out (R7). -/
theorem wf_iff (c : Config) :
    c.wf = true ↔ c.startByte ≠ c.endByte
      ∧ ([c.tags.att, c.tags.alt, c.tags.gps, c.tags.ctl, c.tags.gyr, c.tags.acc] ++ c.extra.map (·.tag)).Nodup
      ∧ (∀ v : Variant, width v ≤ 55) ∧ bufCap = frameLen := by
  have hwidth : (∀ v : Variant, width v ≤ 55) := width_le_dataLen
  have hall : allVariants.all (fun v => decide (width v ≤ dataLen)) = true := by decide
  simp only [Config.wf, registered_tags, hall, Bool.and_eq_true, decide_eq_true_eq, and_true]
  simp only [hwidth, implies_true, and_true]

/-- Settles O13, from the build-time check of every step. -/
theorem onlyWellFormedConfigurationsRun : Obligations.OnlyWellFormedConfigurationsRun := by
  intro s
  rw [← wf_iff]
  exact ⟨step_total, step_of_not_wf⟩

/-! ### The SFD state -/

theorem sfdInv_withRes (s : State) (r : Res) : SfdInv (s.withRes r) ↔ SfdInv s := Iff.rfl

theorem sfdInv_nextCycle (s : State) : SfdInv s.nextCycle ↔ SfdInv s := Iff.rfl

theorem sfdInv_seek (s : State) : SfdInv s.seek := sfdInv_of_nowSeeking (nowSeeking_seek s s.res)

/-- R26, R130, R169: FEED keeps the invariant, DRESET establishes it, and no other word touches the SFD state. -/
theorem WordEffect.sfdInv {w : OpWord} {s u : State} (h : WordEffect w s u) (hinv : SfdInv s) : SfdInv u := by
  cases h with
  | feed b => exact (feed_branch hinv b).sfdInv
  | dreset => exact (sfdInv_withRes _ _).mpr (sfdInv_seek s)
  | codec | extra | illegal => exact (sfdInv_withRes _ _).mpr hinv

/-- Settles O51, case by case of what a step can do. -/
theorem everyStepKeepsTheSfdInvariant : Obligations.EveryStepKeepsTheSfdInvariant := by
  intro s t hinv hstep
  obtain ⟨-, rfl⟩ | rfl | ⟨-, u, rfl, heffect⟩ := step_effect_cases hstep
  · exact (sfdInv_nextCycle _).mpr ((sfdInv_withRes _ _).mpr (sfdInv_seek s))
  · exact (sfdInv_nextCycle _).mpr hinv
  · exact (sfdInv_nextCycle _).mpr (heffect.sfdInv hinv)

/-- R27: only the words of FEED and DRESET have an effect on `st` or `buf`. -/
theorem WordEffect.sfd_unchanged {w : OpWord} {s u : State} (h : WordEffect w s u)
    (hw : ¬((∃ b, w = encode (.feed b)) ∨ w = encode .dreset)) : u.st = s.st ∧ u.buf = s.buf := by
  cases h with
  | feed b hfeed => exact absurd (.inl ⟨b, hfeed⟩) hw
  | dreset hdreset => exact absurd (.inr hdreset) hw
  | codec | extra | illegal => exact ⟨rfl, rfl⟩

/-- Settles O53, case by case of what a step can do. -/
theorem onlySfdOperationsAndResetChangeTheSfd : Obligations.OnlySfdOperationsAndResetChangeTheSfd := by
  intro s t hstep hchange
  obtain ⟨hrst, -⟩ | rfl | ⟨⟨-, -, hvalid⟩, u, rfl, heffect⟩ := step_effect_cases hstep
  · exact .inl hrst
  · simp at hchange
  · refine .inr ⟨hvalid, (sfdWord_iff _).mpr ?_⟩
    by_contra hw
    obtain ⟨hst, hbuf⟩ := heffect.sfd_unchanged hw
    simp [hst, hbuf] at hchange

/-- Settles O48, from the effect of DRESET. -/
theorem dresetReturnsToSeeking : Obligations.DresetReturnsToSeeking :=
  fun s => ⟨_, exec_dreset s, nowSeeking_seek s _, rfl⟩

/-- Settles O49: both seek, and each writes its own record. -/
theorem dresetAndResetDifferOnlyInTheResult : Obligations.DresetAndResetDifferOnlyInTheResult :=
  fun s _ _ hwf hrst => ⟨_, _, exec_dreset s, step_of_reset hwf hrst, rfl, rfl, rfl, rfl, rfl, rfl, rfl⟩

/-! ### The result record -/

/-- What the record of an operation outside the SFD holds in every case: `OP` in `res_op`, no event, no reason, and a
decoded frame with status OK and 63 bytes alone (R90 to R92, R140). -/
structure CodecRecord (op : BitVec 4) (r : Res) : Prop where
  valid : r.valid = true
  op : r.op = op
  event : r.event = .none
  fail : r.fail = .none
  status : r.status.produced = true
  frame : r.frameOk = true → r.status = .ok ∧ r.consumed = 63

theorem codecRecord_result (op : BitVec 4) {st : Status} (h : st.produced = true) : CodecRecord op (result op st) :=
  ⟨rfl, rfl, rfl, rfl, h, by simp⟩

theorem codecRecord_encode (c : Config) (p : Ports) (ty : Byte) (v : Variant) :
    CodecRecord 3 (encodeResult c p ty (marshal v p.buses)) := by
  rw [encodeResult_core]
  exact ⟨rfl, rfl, rfl, rfl, rfl, by simp⟩

theorem codecRecord_decodeFrame (c : Config) (p : Ports) : CodecRecord 4 (decodeFrameResult c p) := by
  rcases decodeFrameResult_cases c p with ⟨-, e⟩ | ⟨-, -, e⟩ | ⟨-, -, e⟩ | ⟨-, -, e⟩ <;> rw [e]
  · exact codecRecord_result 4 rfl
  · exact codecRecord_result 4 rfl
  · exact codecRecord_result 4 rfl
  · exact ⟨rfl, rfl, rfl, rfl, rfl, fun _ => ⟨rfl, rfl⟩⟩

theorem codecRecord_decodePayload (c : Config) (p : Ports) : CodecRecord 5 (decodePayloadResult c p) := by
  rcases decodePayloadResult_cases c p with ⟨-, e⟩ | ⟨_, -, e⟩ | ⟨v, -, e⟩ <;> rw [e]
  · exact codecRecord_result 5 rfl
  · exact codecRecord_result 5 rfl
  · exact ⟨rfl, rfl, rfl, rfl, rfl, by simp⟩

/-- R34, R91: a codec operation leaves its `OP` field and no event. -/
theorem codecRecord_codecResult {i : Instr} (hi : i ∈ codecOps) (c : Config) (p : Ports) :
    CodecRecord (opField (encode i)) (codecResult c p i) := by
  cases i
  case feed | dreset => simp [codecOps] at hi
  case nop => exact codecRecord_result 0 rfl
  case encfAtt | encfAlt | encfGps | encfCtl | encfGyr | encfAcc => exact codecRecord_encode c p _ _
  case decf => exact codecRecord_decodeFrame c p
  case decp => exact codecRecord_decodePayload c p

/-- The status of a codec operation is never that of an illegal word (R202). -/
theorem codecResult_status_ne_illegalOperation {i : Instr} (hi : i ∈ codecOps) (c : Config) (p : Ports) :
    (codecResult c p i).status ≠ .illegalOperation := by
  cases i
  case feed | dreset => simp [codecOps] at hi
  case nop => simp [codecResult]
  case encfAtt | encfAlt | encfGps | encfCtl | encfGyr | encfAcc => simp [codecResult, encodeResult_core]
  case decf =>
    rw [codecResult]
    rcases decodeFrameResult_cases c p with ⟨-, e⟩ | ⟨-, -, e⟩ | ⟨-, -, e⟩ | ⟨-, -, e⟩ <;> simp [e]
  case decp =>
    rw [codecResult]
    rcases decodePayloadResult_cases c p with ⟨-, e⟩ | ⟨_, -, e⟩ | ⟨v, -, e⟩ <;> simp [e]

theorem CodecRecord.resInv {op : BitVec 4} {r : Res} (h : CodecRecord op r) : ResInv r :=
  ⟨h.status, fun hfail => absurd h.fail hfail, h.frame, fun hevent => absurd h.event hevent,
    fun hvalid => by simp [h.valid] at hvalid⟩

/-- The record of a FEED, from whatever state (R160): its event and the reason, which only three events have (R92), or
the frame it emits (R165). -/
inductive FeedOutcome : Res → Prop where
  | event (e : Event) (x : Fail) (he : e ≠ .none)
      (hx : x ≠ .none → e = .resyncKeep ∨ e = .resyncDrop ∨ e = .cleared) : FeedOutcome (feedResult e x)
  | frame (f : FrameRecord) : FeedOutcome (emit (feedResult .emit .none) f)

theorem feedOutcome_feed (b : Byte) (s : State) : FeedOutcome (feed b s).res := by
  rcases feed_cases b s with ⟨-, e⟩ | ⟨-, e⟩ | ⟨-, -, -, e⟩ | ⟨-, -, e⟩ <;> rw [e]
  · exact .event _ _ (by decide) (by decide)
  · unfold feedSeek
    split
    · exact .event _ _ (by decide) (by decide)
    · exact .event _ _ (by decide) (by decide)
  · exact .event _ _ (by decide) (by decide)
  · rcases feedCandidate_cases (s.buf.bytes ++ [b]) s with ⟨-, e'⟩ | ⟨r, -, -, e'⟩ <;> rw [e']
    · exact .frame _
    · rcases feedReject_cases r (s.buf.bytes ++ [b]) s with ⟨k, -, e''⟩ | ⟨-, e''⟩ <;> rw [e'']
      · exact .event _ _ (by decide) (by simp)
      · exact .event _ _ (by decide) (by simp)

/-- R160: `res_valid`, `res_op` and `res_status` of a FEED. -/
theorem FeedOutcome.header {r : Res} (h : FeedOutcome r) : r.valid = true ∧ r.op = 1 ∧ r.status = .ok := by
  cases h <;> exact ⟨rfl, rfl, rfl⟩

theorem FeedOutcome.event_ne_none {r : Res} (h : FeedOutcome r) : r.event ≠ .none := by
  cases h with
  | event e x he hx => exact he
  | frame f => exact Event.noConfusion

theorem FeedOutcome.resInv {r : Res} (h : FeedOutcome r) : ResInv r := by
  cases h with
  | event e x he hx => exact ⟨rfl, hx, by simp, fun _ => rfl, by simp⟩
  | frame f => exact ⟨rfl, by simp, fun _ => ⟨rfl, rfl⟩, fun _ => rfl, by simp⟩

/-- Settles O41, from the record of a FEED. -/
theorem feedAlwaysCompletesWithStatusOk : Obligations.FeedAlwaysCompletesWithStatusOk := by
  intro s b
  have hrecord := feedOutcome_feed b s
  obtain ⟨hvalid, hop, hstatus⟩ := hrecord.header
  refine ⟨_, exec_feed b s, feed_frame b s, hvalid, hop, hstatus, ?_⟩
  generalize (feed b s).res = r at hrecord
  cases hrecord <;> exact ⟨rfl, rfl, rfl, rfl, rfl, rfl⟩

theorem opField_of_extraWord {c : Config} {w : OpWord} {e : ExtraVariant} (h : extraWord c w = some e) :
    opField w = 3 := by
  unfold extraWord at h
  split at h
  · exact (‹opField w = 3 ∧ immField w = 0›).1
  · cases h

/-- R34: every accepted word leaves its own record. -/
theorem WordEffect.valid_op {w : OpWord} {s u : State} (h : WordEffect w s u) :
    u.res.valid = true ∧ u.res.op = opField w := by
  cases h with
  | codec i hi hw =>
    have hrecord := codecRecord_codecResult hi s.cfg s.ports
    exact ⟨hrecord.valid, by rw [hw]; exact hrecord.op⟩
  | feed b hw =>
    obtain ⟨hvalid, hop, -⟩ := (feedOutcome_feed b s).header
    exact ⟨hvalid, by rw [hop, hw, encode, opField_wordOf]⟩
  | dreset hw => exact ⟨rfl, by rw [hw]; rfl⟩
  | extra e hw => exact ⟨rfl, (opField_of_extraWord hw).symm⟩
  | illegal => exact ⟨rfl, rfl⟩

/-- Settles O7, from the record of every effect. -/
theorem acceptedOperationLeavesItsRecord : Obligations.AcceptedOperationLeavesItsRecord := by
  intro s haccepts
  obtain ⟨u, hstep, heffect⟩ := step_effect haccepts
  exact ⟨_, hstep, heffect.valid_op⟩

/-- Settles O6: the record of a legal word has another status. -/
theorem onlyIllegalWordsReportIllegalOperation : Obligations.OnlyIllegalWordsReportIllegalOperation := by
  intro s t haccepts hstep hstatus
  obtain ⟨u, rfl, heffect⟩ := effect_of_step haccepts hstep
  rw [State.nextCycle_res] at hstatus
  cases heffect with
  | codec i hi => exact absurd hstatus (codecResult_status_ne_illegalOperation hi _ _)
  | feed b =>
    obtain ⟨-, -, hok⟩ := (feedOutcome_feed b s).header
    simp [hok] at hstatus
  | dreset | extra => simp at hstatus
  | illegal hill => exact hill

/-- R91: an event is recorded exactly for the words of FEED and DRESET. No other effect is of such a word, since no two
operations share a word and no operation's word is an extra variant's or illegal. -/
theorem WordEffect.event_ne_none_iff {w : OpWord} {s u : State} (h : WordEffect w s u) :
    u.res.event ≠ .none ↔ (∃ b, w = encode (.feed b)) ∨ w = encode .dreset := by
  cases h with
  | feed b hw => exact iff_of_true (feedOutcome_feed b s).event_ne_none (.inl ⟨b, hw⟩)
  | dreset hw => exact iff_of_true Event.noConfusion (.inr hw)
  | codec i hi hw =>
    refine iff_of_false (not_not.mpr (codecRecord_codecResult hi s.cfg s.ports).event) ?_
    rintro (⟨b, hb⟩ | hd)
    · rw [encode_inj (hw.symm.trans hb)] at hi
      simp [codecOps] at hi
    · rw [encode_inj (hw.symm.trans hd)] at hi
      simp [codecOps] at hi
  | extra e hw =>
    refine iff_of_false (not_not.mpr rfl) ?_
    rintro (⟨b, rfl⟩ | rfl) <;> simp [extraWord_encode] at hw
  | illegal hw =>
    refine iff_of_false (not_not.mpr rfl) ?_
    rintro (⟨b, rfl⟩ | rfl) <;> exact not_illegal_encode _ _ hw

/-- Settles O8, from the event of every effect. -/
theorem eventIsNonzeroExactlyForSfdOperations : Obligations.EventIsNonzeroExactlyForSfdOperations := by
  intro s t haccepts hstep
  obtain ⟨u, rfl, heffect⟩ := effect_of_step haccepts hstep
  exact heffect.event_ne_none_iff.trans (sfdWord_iff _).symm

/-- R90, R92, R200: the record of every accepted word keeps the promises. -/
theorem WordEffect.resInv {w : OpWord} {s u : State} (h : WordEffect w s u) : ResInv u.res := by
  cases h with
  | codec i hi => exact (codecRecord_codecResult hi s.cfg s.ports).resInv
  | feed b => exact (feedOutcome_feed b s).resInv
  | dreset => exact ⟨rfl, by simp, by simp, fun _ => rfl, by simp⟩
  | extra => exact (codecRecord_result 3 rfl).resInv
  | illegal => exact (codecRecord_result _ rfl).resInv

theorem resInv_zero : ResInv Res.zero := ⟨rfl, by simp, by simp, by simp, fun _ => rfl⟩

/-- Settles O52, case by case of what a step can do. -/
theorem everyStepKeepsTheResultPromises : Obligations.EveryStepKeepsTheResultPromises := by
  intro s t hinv hstep
  obtain ⟨-, rfl⟩ | rfl | ⟨-, u, rfl, heffect⟩ := step_effect_cases hstep
  · exact resInv_zero
  · exact hinv
  · exact heffect.resInv

end Sys2Proof.Proofs

/-! PROOF. Encoding and decoding frames and payloads (40_payload_registry.md R102 to R119; 41_frame_codec.md R132, R148,
R150). ENCF reads only the field patterns of its variant; the frame it builds passes the frame check, and parsing that
frame and unmarshalling its data slot undo the two steps by which it was built. DECP reads `W(v)` bytes of the slot. -/

namespace Sys2Proof.Proofs

open Sys2Proof.Machine Sys2Proof.Claims

/-! ### Codec operations and the SFD -/

/-- R51: FEED does not read the result register. -/
theorem feed_withRes (b : Byte) (s : State) (r : Res) : feed b (s.withRes r) = feed b s := rfl

/-- Settles O34: a codec operation writes only the result register. -/
theorem codecOperationBetweenFeedsChangesNothing : Obligations.CodecOperationBetweenFeedsChangesNothing := by
  intro s t u i b hi ht hu
  rw [exec_codec hi] at ht
  obtain rfl := Host.Outcome.next.inj ht
  rw [exec_feed, feed_withRes]
  exact hu

/-- Settles O35: a codec operation does not read the result register it writes. -/
theorem codecOperationsAreIdempotent : Obligations.CodecOperationsAreIdempotent := by
  intro s t i hi ht
  rw [exec_codec hi] at ht
  obtain rfl := Host.Outcome.next.inj ht
  exact exec_codec hi _

/-! ### ENCF: the payload -/

theorem exec_encfOf_res {v : Variant} {s t : State} (h : exec (encfOf v) s = .next t) :
    t = s.withRes (encodeResult s.cfg s.ports (tag s.cfg v) (marshal v s.ports.buses)) :=
  (Host.Outcome.next.inj ((exec_encfOf v s).symm.trans h)).symm

/-- R119: the step of an extra variant's word. -/
theorem step_of_extraWord {s : State} {e : ExtraVariant} (ha : Accepts s) (h : extraWord s.cfg s.ports.opw = some e) :
    step s = .next (s.withRes (result 0x3 .payloadTooLarge)).nextCycle := by
  rw [step_of_accepts ha]
  rcases acceptWord_cases s.ports.opw s with ⟨i, hop, -⟩ | ⟨-, e', -, -, heq⟩ | ⟨-, -, hx, -⟩
  · rw [← encodeOfDecodeIsTheWord _ i hop, extraWord_encode] at h
    cases h
  · rw [heq, exec_extra]
    rfl
  · simp [hx] at h

/-- R82: the word `0x3s00` of the extra variant at index `n`. -/
theorem extraWord_of_index (c : Config) (n : Fin 9) :
    extraWord c (0x3000 + BitVec.ofNat 16 ((n.val + 7) * 256)) = c.extra[n.val]? := by
  have hword : ∀ n : Fin 9, (0x3000 + BitVec.ofNat 16 ((n.val + 7) * 256) : OpWord)
      = wordOf 3 (BitVec.ofNat 4 (n.val + 7)) 0 := by decide
  have hsel : (BitVec.ofNat 4 (n.val + 7)).toNat = n.val + 7 := by
    rw [BitVec.toNat_ofNat]
    omega
  rw [hword, extraWord_wordOf c (by omega), hsel, Nat.add_sub_cancel]

/-- Settles O22: no extra payload fits the slot and every other one does. -/
theorem oversizedPayloadIsRejectedWithoutAFrame : Obligations.OversizedPayloadIsRejectedWithoutAFrame := by
  refine ⟨fun s e n ha he hw => ⟨_, step_of_extraWord (e := e) ha ?word, rfl, rfl, rfl⟩, fun s v => ?core⟩
  case word => rw [hw, extraWord_of_index, he]
  case core =>
    refine ⟨_, exec_encfOf v s, ?_⟩
    rw [State.withRes_res, encodeResult_core]
    rfl

/-- R102: the image of a binary32 field is that of the lower half of its bus. -/
theorem bytes32_low32 (f : Bus) : bytes32 (low32 f) = bytes32 f := by
  have hlow : (low32 f).extractLsb' 0 32 = f.extractLsb' 0 32 := by
    rw [low32, BitVec.extractLsb'_setWidth_of_le (by decide), BitVec.extractLsb'_setWidth_of_le (by decide)]
  rw [← image_binary32, ← image_binary32, Format.image, Format.image, hlow]

/-- R102, R104: the payload is that of the field patterns. -/
theorem marshal_patterns (v : Variant) (p : Ports) : marshal v (patterns v p) = marshal v p.buses := by
  cases v <;> simp [marshal, fields, patterns, Ports.buses, bytes32_low32]

/-- Settles O23: the record depends on the addresses and the payload, and the payload on the patterns. -/
theorem encfReadsOnlyTheFieldPatterns : Obligations.EncfReadsOnlyTheFieldPatterns := by
  intro s u t w v hcfg hfrom hto hpatterns ht hw
  rw [exec_encfOf_res ht, exec_encfOf_res hw, State.withRes_res, State.withRes_res, encodeResult_core, encodeResult_core,
    ← marshal_patterns, ← marshal_patterns, hcfg, hfrom, hto, hpatterns]

/-- Settles O21: the integrity bytes of six fixed frames, by evaluation. -/
theorem exampleFramesHaveTheSpecIntegrityBytes : Obligations.ExampleFramesHaveTheSpecIntegrityBytes := by
  refine ⟨?_, ?_, ?_, ?_, ?_, ?_⟩ <;> decide +kernel

/-! ### ENCF: the frame -/

section Frame

variable (c : Config) (f t : Addr) (ty : Byte) {p : List Byte} (hp : p.length ≤ dataLen)

/-- The frame of a payload that fits, as fixed-size storage (R60). -/
def frameOf (p : List Byte) : Vector Byte 63 := bytesVec 63 (buildFrame c f t ty p)

include hp

theorem frameOf_toList : (frameOf c f t ty p).toList = buildFrame c f t ty p :=
  bytesVec_toList (buildFrame_length c f t ty hp)

/-- R132, R139: the sentinels are in place and the integrity byte is that of bytes 0 to 60. -/
theorem passes_frameOf : Passes c (frameOf c f t ty p).toList := by
  have hbody := frameBody_length c f t ty hp
  rw [frameOf_toList c f t ty hp, buildFrame]
  simp only [Passes, not_or, not_not]
  refine ⟨⟨?start, ?stop⟩, ?integrity⟩
  case start => simp [frameBody]
  case stop => simp [List.getD_eq_getElem?_getD, hbody]
  case integrity => simp [List.getD_eq_getElem?_getD, hbody]

/-- R132, R140: parsing a frame returns what it was built from. -/
theorem parse_frameOf : parse (frameOf c f t ty p)
    = { fromAddr := f, toAddr := t, typ := ty, data := bytesVec 55 (pad55 p),
        integrity := crc8 c (frameBody c f t ty p) } := by
  have hlen := buildFrame_length c f t ty hp
  have hslot : ((frameOf c f t ty p).toList.drop 6).take 55 = pad55 p := by
    simp [frameOf_toList c f t ty hp, buildFrame, frameBody, bytesLe16, pad55_length hp]
  have hget (i : Nat) (hi : i < 63) : (frameOf c f t ty p)[i] = (buildFrame c f t ty p)[i]'(hlen ▸ hi) :=
    bytesVec_getElem hlen i hi
  have hintegrity : (frameOf c f t ty p)[61] = crc8 c (frameBody c f t ty p) := by
    simp [hget, buildFrame, frameBody_length c f t ty hp]
  have hheader : (frameOf c f t ty p)[1] = f.extractLsb' 0 8 ∧ (frameOf c f t ty p)[2] = f.extractLsb' 8 8
      ∧ (frameOf c f t ty p)[3] = t.extractLsb' 0 8 ∧ (frameOf c f t ty p)[4] = t.extractLsb' 8 8
      ∧ (frameOf c f t ty p)[5] = ty := by
    simp only [hget]
    exact ⟨rfl, rfl, rfl, rfl, rfl⟩
  obtain ⟨h1, h2, h3, h4, h5⟩ := hheader
  rw [parse, hslot, hintegrity, h1, h2, h3, h4, h5, le16_extract, le16_extract]

end Frame

/-- ENCF of `v` writes the frame of its payload (R132). -/
theorem exec_encfOf_frame {v : Variant} {s t : State} (h : exec (encfOf v) s = .next t) :
    t.res.frame = frameOf s.cfg s.ports.encFrom s.ports.encTo (tag s.cfg v) (marshal v s.ports.buses) := by
  rw [exec_encfOf_res h, State.withRes_res, encodeResult_core]
  rfl

theorem exec_encfOf_passes {v : Variant} {s t : State} (h : exec (encfOf v) s = .next t) :
    Passes s.cfg t.res.frame.toList := by
  rw [exec_encfOf_frame h]
  exact passes_frameOf _ _ _ _ (marshal_length_le v s.ports)

/-- Settles O38: the payload of every variant fits, so the frame passes. -/
theorem encodedFramesPassTheCheck : Obligations.EncodedFramesPassTheCheck :=
  fun s v => ⟨_, exec_encfOf v s, exec_encfOf_passes (exec_encfOf v s)⟩

/-! ### DECP: the fields read -/

/-- R105: only the bytes of the fields are read. -/
theorem unmarshalFields_take (fmts : List Format) (bs : List Byte) {n : Nat} (h : (fmts.map Format.width).sum ≤ n) :
    unmarshalFields fmts (bs.take n) = unmarshalFields fmts bs := by
  induction fmts generalizing bs n with
  | nil => rfl
  | cons fmt fmts ih =>
    rw [List.map_cons, List.sum_cons] at h
    rw [unmarshalFields, unmarshalFields, List.take_take, List.drop_take, Nat.min_eq_left (by omega), ih _ (by omega)]

theorem unmarshal_take (v : Variant) (bs : List Byte) : unmarshal v (bs.take (width v)) = unmarshal v bs :=
  unmarshalFields_take (fields v) bs le_rfl

/-- Settles O32: both results are those of the same `W(v)` bytes. -/
theorem decpIgnoresThePadding : Obligations.DecpIgnoresThePadding := by
  intro s u t w v hwf hcfg htag htype hdata ht hw
  rw [exec_codec (by decide)] at ht hw
  obtain rfl := Host.Outcome.next.inj ht
  obtain rfl := Host.Outcome.next.inj hw
  have hu : u.ports.dpType = tag u.cfg v := by rw [htype, htag, hcfg]
  simp only [State.withRes_res, codecResult]
  rw [decodePayloadResult_of_tag hwf htag, decodePayloadResult_of_tag (hcfg ▸ hwf) hu, htype,
    ← unmarshal_take v s.ports.dpData.toList, ← unmarshal_take v u.ports.dpData.toList, hdata]

/-! ### DECP: the variant that does not fit -/

theorem lookup_eq_some {c : Config} {t : Byte} {r : Registered} (h : lookup c t = some r) :
    r ∈ registered c ∧ r.tag c = t :=
  ⟨List.mem_of_find?_eq_some h, by simpa using List.find?_some h⟩

/-- With distinct tags, the lookup answers an extra variant exactly for the tags of the extra variants (R82, R118). -/
theorem lookup_extra_iff {c : Config} (hwf : c.wf = true) (t : Byte) :
    (∃ e, lookup c t = some (.extra e)) ↔ t ∈ c.extra.map (·.tag) := by
  constructor
  · rintro ⟨e, he⟩
    obtain ⟨hmem, rfl⟩ := lookup_eq_some he
    have hextra : e ∈ c.extra := by simpa [registered] using hmem
    exact List.mem_map_of_mem hextra
  · intro h
    obtain ⟨e, he, rfl⟩ := List.mem_map.mp h
    have hmem : Registered.extra e ∈ registered c := List.mem_append_right _ (List.mem_map_of_mem he)
    exact ⟨e, find_of_nodup (fun r : Registered => r.tag c) (registered c) (wf_tags hwf) _ hmem⟩

/-- R148: MALFORMED_PAYLOAD is the status of a lookup that answers an extra variant, and is written alone. -/
theorem decodePayloadResult_malformed_iff (c : Config) (p : Ports) :
    (decodePayloadResult c p).status = .malformedPayload ↔ ∃ e, lookup c p.dpType = some (.extra e) := by
  rcases decodePayloadResult_cases c p with ⟨h, e⟩ | ⟨x, h, e⟩ | ⟨v, h, e⟩ <;> simp [h, e]

theorem decodePayloadResult_of_lookup_extra {c : Config} {p : Ports} {e : ExtraVariant}
    (h : lookup c p.dpType = some (.extra e)) : decodePayloadResult c p = result 0x5 .malformedPayload := by
  simp [decodePayloadResult, h]

/-- Settles O27, from the tags the lookup answers an extra variant for. -/
theorem decpReportsMalformedPayloadExactly : Obligations.DecpReportsMalformedPayloadExactly := by
  intro s hwf
  have hlookup := decodePayloadResult_malformed_iff s.cfg s.ports
  have htags := hlookup.trans (lookup_extra_iff hwf s.ports.dpType)
  refine ⟨_, exec_codec (by decide) s, withRes_onlyRes s _, htags, ?default, ?record⟩
  case default =>
    intro hc hstatus
    have hmem := htags.mp hstatus
    rw [hc] at hmem
    simp [Config.default] at hmem
  case record =>
    intro hstatus
    obtain ⟨e, he⟩ := hlookup.mp hstatus
    exact decodePayloadResult_of_lookup_extra he

/-! ### The round trip -/

theorem value_image_binary32 (f : Bus) : Format.value .binary32 (Format.image .binary32 f) = low32 f := by
  rw [Format.image, Format.value, le32_bytesLe32]
  rfl

theorem value_image_binary64 (f : Bus) : Format.value .binary64 (Format.image .binary64 f) = f :=
  le64_bytesLe64 f

/-- R105: unmarshalling undoes marshalling, field by field, whatever follows the payload. -/
theorem unmarshalFields_marshalFields {fmts : List Format} {fs : List Bus} (h : fmts.length ≤ fs.length)
    (rest : List Byte) : unmarshalFields fmts (marshalFields fmts fs ++ rest)
      = List.zipWith (fun fmt f => Format.value fmt (Format.image fmt f)) fmts fs := by
  induction fmts generalizing fs with
  | nil => rfl
  | cons fmt fmts ih =>
    obtain ⟨f, fs, rfl⟩ := List.exists_cons_of_length_pos (Nat.lt_of_lt_of_le (Nat.succ_pos _) h)
    have hlen := Format.image_length fmt f
    rw [marshalFields_cons, List.append_assoc, unmarshalFields, List.take_left' hlen, List.drop_left' hlen,
      ih (Nat.le_of_succ_le_succ h), List.zipWith_cons_cons]

/-- R150: the four fields read from the slot of an encoded payload are the patterns, 0 for a field the variant lacks. -/
theorem unmarshal_marshal (v : Variant) (p : Ports) (rest : List Byte) :
    let f := unmarshal v (marshal v p.buses ++ rest)
    [f.getD 0 0, f.getD 1 0, f.getD 2 0, f.getD 3 0] = patterns v p := by
  have hlen : (fields v).length ≤ 4 := by cases v <;> decide
  rw [unmarshal, marshal, unmarshalFields_marshalFields (fs := p.buses) hlen]
  cases v <;> simp only [fields, Ports.buses, patterns, List.zipWith, value_image_binary32, value_image_binary64] <;> rfl

/-- R150: DECF of an encoded frame in a window that is long enough. -/
theorem decodeFrameResult_of_frame {c : Config} {p : Ports} {f t : Addr} {ty : Byte} {payload : List Byte}
    (hpayload : payload.length ≤ dataLen) (hwin : p.win = frameOf c f t ty payload) (hlen : 63 ≤ p.winLen.toNat) :
    decodeFrameResult c p = emit (result 0x4 .ok)
      { fromAddr := f, toAddr := t, typ := ty, data := bytesVec 55 (pad55 payload),
        integrity := crc8 c (frameBody c f t ty payload) } := by
  have hpass : Passes c p.win.toList := hwin ▸ passes_frameOf c f t ty hpayload
  rw [decodeFrameResult_of_passes hlen hpass, hwin, parse_frameOf c f t ty hpayload]

/-- Settles O39: parsing undoes the frame, the tag selects the variant, and unmarshalling undoes the payload. -/
theorem encodeDecodeRoundTrip : Obligations.EncodeDecodeRoundTrip := by
  intro s t u x v hwf ht hcfg hwin hlen
  have hfit := marshal_length_le v s.ports
  rw [exec_encfOf_frame ht] at hwin
  refine ⟨_, exec_codec (by decide) u, ?_⟩
  simp only [State.withRes_res, codecResult]
  rw [hcfg, decodeFrameResult_of_frame hfit hwin hlen]
  refine ⟨rfl, rfl, rfl, rfl, rfl, rfl, fun hxcfg htype hdata => ⟨_, exec_codec (by decide) x, ?_⟩⟩
  simp only [emit_typ, emit_data] at htype hdata
  simp only [State.withRes_res, codecResult]
  rw [hxcfg, decodePayloadResult_of_tag hwf htype, hdata, bytesVec_toList (pad55_length hfit)]
  exact ⟨rfl, rfl, unmarshal_marshal v s.ports _⟩

end Sys2Proof.Proofs

/-! PROOF. The integrity function (30_encoding.md R68, R69) and the corruption rejection of 41_frame_codec.md R150. A byte
is read as a polynomial over `ZMod 2`; a shift of the CRC is then multiplication by `X` modulo the generator
`X ^ 8 + poly`. Since the shift is additive, flipping bit `k` of a byte with `m` bytes after it changes the CRC by
`X ^ (8 * (m + 1) + k)` modulo the generator; and only a generator of one term divides a power of `X`. -/

namespace Sys2Proof.Proofs

open Sys2Proof.Machine Sys2Proof.Claims

/-! ### Runs of zero bytes, and a sequence followed by its CRC -/

@[simp] theorem crcShift_iterate_zero (poly : Byte) (n : Nat) : (crcShift poly)^[n] 0 = 0 :=
  Function.iterate_fixed (crcShift_zero poly) n

theorem crcByte_zero (poly : Byte) : crcByte poly 0 0 = 0 := crcShift_iterate_zero poly 8

/-- A byte equal to the register clears it. -/
theorem crcByte_self (poly b : Byte) : crcByte poly b b = 0 := by
  rw [crcByte, BitVec.xor_self]
  exact crcShift_iterate_zero poly 8

theorem foldl_crcByte_zeros (poly : Byte) (n : Nat) : (List.replicate n 0).foldl (crcByte poly) 0 = 0 := by
  induction n with
  | zero => rfl
  | succ n ih => rw [List.replicate_succ, List.foldl_cons, crcByte_zero, ih]

/-- Settles O36: the check value by evaluation, the zero bytes by induction on their number. -/
theorem crcCheckValueAndZeros : Obligations.CrcCheckValueAndZeros := by
  refine ⟨by decide +kernel, fun n => ?_⟩
  have hzeros : (List.replicate n 0).foldl (crcByte Config.default.crcPoly) Config.default.crcInit = 0 :=
    foldl_crcByte_zeros _ n
  rw [crc8, hzeros]
  rfl

/-- Settles O37: the CRC of a sequence is the register after it, which that byte clears. -/
theorem crcOfSequenceAndItsCrcIsZero : Obligations.CrcOfSequenceAndItsCrcIsZero := by
  intro c bs hout
  have hcrc : crc8 c bs = bs.foldl (crcByte c.crcPoly) c.crcInit := by simp [crc8, hout]
  rw [crc8_append, hcrc, List.foldl_cons, List.foldl_nil, crcByte_self, hout]
  rfl

/-! ### The CRC is additive -/

theorem crcShift_eq_xor (poly b : Byte) : crcShift poly b = (b <<< 1) ^^^ (if b.getLsbD 7 then poly else 0) := by
  unfold crcShift
  split <;> simp

/-- A shift of an exclusive or is the exclusive or of the shifts. -/
theorem crcShift_xor (poly a b : Byte) : crcShift poly (a ^^^ b) = crcShift poly a ^^^ crcShift poly b := by
  have hfeedback : (if (a ^^^ b).getLsbD 7 then poly else 0)
      = (if a.getLsbD 7 then poly else 0) ^^^ (if b.getLsbD 7 then poly else 0) := by
    rw [BitVec.getLsbD_xor]
    cases a.getLsbD 7 <;> cases b.getLsbD 7 <;> simp
  rw [crcShift_eq_xor, crcShift_eq_xor, crcShift_eq_xor, hfeedback, BitVec.shiftLeft_xor_distrib]
  ac_rfl

theorem crcShift_iterate_xor (poly a b : Byte) (n : Nat) :
    (crcShift poly)^[n] (a ^^^ b) = (crcShift poly)^[n] a ^^^ (crcShift poly)^[n] b := by
  induction n generalizing a b with
  | zero => rfl
  | succ n ih => simp only [Function.iterate_succ_apply, crcShift_xor, ih]

theorem crcByte_xor (poly a d b : Byte) : crcByte poly (a ^^^ d) b = crcByte poly a b ^^^ (crcShift poly)^[8] d := by
  rw [crcByte, crcByte, BitVec.xor_assoc, BitVec.xor_comm d b, ← BitVec.xor_assoc, crcShift_iterate_xor]

/-- A difference in the register is shifted through the bytes that follow. -/
theorem foldl_crcByte_xor (poly a d : Byte) (bs : List Byte) :
    bs.foldl (crcByte poly) (a ^^^ d) = bs.foldl (crcByte poly) a ^^^ (crcShift poly)^[8 * bs.length] d := by
  induction bs generalizing a d with
  | nil => rfl
  | cons b bs ih =>
    rw [List.foldl_cons, List.foldl_cons, crcByte_xor, ih, ← Function.iterate_add_apply, List.length_cons, Nat.mul_succ]

/-- The difference in a byte is shifted through that byte and the bytes that follow. -/
theorem crc8_append_cons_xor (c : Config) (as bs : List Byte) (b d : Byte) :
    crc8 c (as ++ (b ^^^ d) :: bs)
      = crc8 c (as ++ b :: bs) ^^^ (crcShift c.crcPoly)^[8 * (bs.length + 1)] d := by
  have hbyte (a : Byte) : crcByte c.crcPoly a (b ^^^ d) = crcByte c.crcPoly a b ^^^ (crcShift c.crcPoly)^[8] d := by
    rw [crcByte, crcByte, ← BitVec.xor_assoc, crcShift_iterate_xor]
  rw [crc8_append, crc8_append, List.foldl_cons, List.foldl_cons, hbyte, foldl_crcByte_xor, ← Function.iterate_add_apply,
    ← Nat.mul_succ, BitVec.xor_assoc, BitVec.xor_assoc, BitVec.xor_comm c.crcXorout]

/-! ### Bytes as polynomials over the field of two elements -/

section Polynomial

open Polynomial

/-- The polynomial whose coefficients are the bits of a byte. -/
noncomputable def toPoly (b : Byte) : (ZMod 2)[X] := ∑ i ∈ Finset.range 8, if b.getLsbD i then X ^ i else 0

theorem coeff_toPoly (b : Byte) (i : Nat) : (toPoly b).coeff i = if b.getLsbD i then 1 else 0 := by
  have hterm (j : Nat) : (if b.getLsbD j then X ^ j else 0 : (ZMod 2)[X]).coeff i
      = if i = j then (if b.getLsbD i then 1 else 0) else 0 := by
    split <;> simp_all [coeff_X_pow]
  rw [toPoly, finsetSum_coeff, Finset.sum_congr rfl fun j _ => hterm j, Finset.sum_ite_eq]
  split
  · rfl
  · rename_i hi
    rw [BitVec.getLsbD_of_ge b i (by simpa using hi)]
    rfl

theorem toPoly_xor (a b : Byte) : toPoly (a ^^^ b) = toPoly a + toPoly b := by
  ext i
  rw [coeff_add, coeff_toPoly, coeff_toPoly, coeff_toPoly, BitVec.getLsbD_xor]
  cases a.getLsbD i <;> cases b.getLsbD i <;> decide

theorem toPoly_twoPow {k : Nat} (hk : k < 8) : toPoly (BitVec.twoPow 8 k) = X ^ k := by
  ext i
  rw [coeff_toPoly, coeff_X_pow, BitVec.getLsbD_twoPow]
  simp [hk, eq_comm]

theorem toPoly_eq_zero {b : Byte} (h : toPoly b = 0) : b = 0 := by
  ext i hi
  have hcoeff : (toPoly b).coeff i = 0 := by rw [h, coeff_zero]
  rw [coeff_toPoly] at hcoeff
  simpa [BitVec.getLsbD_eq_getElem hi] using hcoeff

/-- The generator polynomial of the CRC (R68): the polynomial parameter without its term of degree 8. -/
noncomputable def generator (poly : Byte) : (ZMod 2)[X] := X ^ 8 + toPoly poly

theorem generator_monic (poly : Byte) : (generator poly).Monic := by
  refine monic_X_pow_add ((degree_lt_iff_coeff_zero _ _).mpr fun i hi => ?_)
  rw [coeff_toPoly, BitVec.getLsbD_of_ge _ _ hi]
  rfl

/-- Bit 7 is the term of degree 8 that a left shift drops. -/
theorem X_mul_toPoly (b : Byte) : X * toPoly b = toPoly (b <<< 1) + if b.getLsbD 7 then X ^ 8 else 0 := by
  have hdrop (i : Nat) : (if b.getLsbD 7 then X ^ 8 else 0 : (ZMod 2)[X]).coeff i
      = if i = 8 ∧ b.getLsbD 7 then 1 else 0 := by
    split <;> simp_all [coeff_X_pow]
  ext i
  rw [coeff_add, hdrop, coeff_toPoly, BitVec.getLsbD_shiftLeft]
  cases i with
  | zero => simp
  | succ i =>
    rw [coeff_X_mul, coeff_toPoly]
    rcases lt_trichotomy i 7 with hlt | rfl | hgt
    · have hbit : i + 1 < 8 := Nat.succ_lt_succ hlt
      simp [hbit, hlt.ne]
    · simp
    · simp [hgt.ne', BitVec.getLsbD_of_ge b i hgt]

/-- A shift of the CRC multiplies by `X` modulo the generator. -/
theorem toPoly_crcShift (poly b : Byte) :
    X * toPoly b = toPoly (crcShift poly b) + if b.getLsbD 7 then generator poly else 0 := by
  rw [X_mul_toPoly, crcShift]
  split
  · have hcancel : toPoly poly + toPoly poly = 0 := CharTwo.add_self_eq_zero _
    rw [toPoly_xor, generator]
    linear_combination -hcancel
  · rfl

theorem generator_dvd_of_dvd_crcShift {poly b : Byte} {q : (ZMod 2)[X]}
    (h : generator poly ∣ q * toPoly (crcShift poly b)) : generator poly ∣ q * X * toPoly b := by
  rw [mul_assoc, toPoly_crcShift poly, mul_add]
  refine dvd_add h (Dvd.dvd.mul_left ?_ q)
  split
  · exact dvd_rfl
  · exact dvd_zero _

theorem generator_dvd_of_crcShift_iterate_eq_zero {poly b : Byte} {n : Nat} (h : (crcShift poly)^[n] b = 0) :
    generator poly ∣ X ^ n * toPoly b := by
  induction n generalizing b with
  | zero =>
    obtain rfl : b = 0 := h
    simp [toPoly]
  | succ n ih =>
    rw [pow_succ]
    exact generator_dvd_of_dvd_crcShift (ih h)

/-- A generator that divides a power of `X` has one term. -/
theorem poly_eq_zero_of_generator_dvd {poly : Byte} {n : Nat} (h : generator poly ∣ X ^ n) : poly = 0 := by
  obtain ⟨i, -, hassoc⟩ := (dvd_prime_pow prime_X n).mp h
  have heq : generator poly = X ^ i := eq_of_monic_of_associated (generator_monic poly) (monic_X_pow i) hassoc
  have hdegree : (X ^ i : (ZMod 2)[X]).coeff 8 = 1 := by
    rw [← heq, generator, coeff_add, coeff_toPoly, BitVec.getLsbD_of_ge poly 8 le_rfl, coeff_X_pow_self]
    rfl
  obtain rfl : 8 = i := by
    by_contra hne
    simp [coeff_X_pow, hne] at hdegree
  exact toPoly_eq_zero (add_eq_left.mp heq)

end Polynomial

/-- A one-bit difference never disappears: the generator has more than one term (R150). -/
theorem crcShift_iterate_twoPow_ne_zero {poly : Byte} (hpoly : poly ≠ 0) {k : Nat} (hk : k < 8) (n : Nat) :
    (crcShift poly)^[n] (BitVec.twoPow 8 k) ≠ 0 := by
  intro h
  have hdvd := generator_dvd_of_crcShift_iterate_eq_zero h
  rw [toPoly_twoPow hk, ← pow_add] at hdvd
  exact hpoly (poly_eq_zero_of_generator_dvd hdvd)

/-! ### A frame with one bit flipped -/

theorem xor_ne_self {b d : Byte} (hd : d ≠ 0) : b ^^^ d ≠ b := by
  intro h
  rw [← BitVec.xor_zero (x := b), BitVec.xor_assoc, BitVec.zero_xor, BitVec.xor_right_inj] at h
  exact hd h

theorem twoPow_ne_zero (k : Fin 8) : BitVec.twoPow 8 k.val ≠ 0 := by
  revert k
  decide

/-- R150: a sequence with one bit flipped has another CRC. -/
theorem crc8_set_ne {c : Config} (hpoly : c.crcPoly ≠ 0) {bs : List Byte} {n k : Nat} (hn : n < bs.length) (hk : k < 8) :
    crc8 c (bs.set n (bs[n] ^^^ BitVec.twoPow 8 k)) ≠ crc8 c bs := by
  have hsplit : bs = bs.take n ++ bs[n] :: bs.drop (n + 1) := by simp
  rw [List.set_eq_take_append_cons_drop, if_pos hn, crc8_append_cons_xor, ← hsplit]
  exact xor_ne_self (crcShift_iterate_twoPow_ne_zero hpoly hk _)

theorem getElem_flipBit_self (w : Vector Byte 63) (n : Fin 63) (k : Fin 8) :
    (flipBit w n k)[n.val] = w[n.val] ^^^ BitVec.twoPow 8 k.val :=
  Vector.getElem_set_self _

theorem getElem_flipBit_self_ne (w : Vector Byte 63) (n : Fin 63) (k : Fin 8) : (flipBit w n k)[n.val] ≠ w[n.val] := by
  rw [getElem_flipBit_self]
  exact xor_ne_self (twoPow_ne_zero k)

theorem getElem_flipBit_ne (w : Vector Byte 63) {n : Fin 63} (k : Fin 8) {i : Nat} (hi : i < 63) (h : n.val ≠ i) :
    (flipBit w n k)[i] = w[i] :=
  Vector.getElem_set_ne _ _ h

/-- Bytes 0 to 60 of the flipped frame. -/
theorem flipBit_body (w : Vector Byte 63) (n : Fin 63) (k : Fin 8) :
    (flipBit w n k).toList.take 61 = (w.toList.take 61).set n.val (w[n.val] ^^^ BitVec.twoPow 8 k.val) := by
  rw [← List.take_set]
  rfl

/-- R150: a flip in bytes 0 to 60 changes the CRC alone, a flip in byte 61 the integrity byte alone. -/
theorem badIntegrity_flipBit {c : Config} (hpoly : c.crcPoly ≠ 0) {w : Vector Byte 63}
    (hcrc : crc8 c (w.toList.take 61) = w[61]) {n : Fin 63} (hn : n.val ≤ 61) (k : Fin 8) :
    BadIntegrity c (flipBit w n k).toList := by
  rw [badIntegrity_toList, flipBit_body]
  rcases Nat.lt_or_eq_of_le hn with hlt | h61
  · have hbody : n.val < (w.toList.take 61).length := by simpa using hlt
    have hbyte : w[n.val] = (w.toList.take 61)[n.val] := by simp
    rw [getElem_flipBit_ne w k _ hlt.ne, ← hcrc, hbyte]
    exact crc8_set_ne hpoly hbody k.isLt
  · have hflip := getElem_flipBit_self_ne w n k
    simp only [h61] at hflip
    rw [List.set_eq_of_length_le (by simp [h61]), hcrc]
    exact hflip.symm

/-- R150: a frame with one bit flipped fails the frame check, at a sentinel or at the integrity byte. -/
theorem frameCheck_flipBit {c : Config} (hpoly : c.crcPoly ≠ 0) {w : Vector Byte 63} (hpass : Passes c w.toList)
    (n : Fin 63) (k : Fin 8) :
    frameCheck c (flipBit w n k) = if n.val = 0 ∨ n.val = 62 then .invalidFrame else .crcMismatch := by
  obtain ⟨hstart, hend, hcrc⟩ := (frameCheck_ok_iff c w).mp ((frameCheck_eq_ok_iff_passes c w).mpr hpass)
  have hflip := getElem_flipBit_self_ne w n k
  split
  · rw [frameCheck_eq_invalidFrame_iff, badSentinel_toList, ← hstart, ← hend]
    rename_i hsentinel
    rcases hsentinel with h0 | h62
    · simp only [h0] at hflip
      exact .inl hflip
    · simp only [h62] at hflip
      exact .inr hflip
  · rename_i hinner
    obtain ⟨h0, h62⟩ := not_or.mp hinner
    rw [frameCheck_eq_crcMismatch_iff, badSentinel_toList, getElem_flipBit_ne w k _ h0, getElem_flipBit_ne w k _ h62]
    exact ⟨by simp [hstart, hend], badIntegrity_flipBit hpoly hcrc (by omega) k⟩

/-- R141: in a window that is long enough, the status of DECF is the verdict of the frame check. -/
theorem decodeFrameResult_status {c : Config} {p : Ports} (hlen : 63 ≤ p.winLen.toNat) :
    (decodeFrameResult c p).status = (frameCheck c p.win).status := by
  rcases decodeFrameResult_cases c p with ⟨hl, -⟩ | ⟨-, hv, e⟩ | ⟨-, hv, e⟩ | ⟨-, hv, e⟩
  · omega
  all_goals
    rw [e, hv]
    rfl

/-- Settles O40, from the frame check of the flipped frame. -/
theorem singleBitFlipIsRejectedByDecf : Obligations.SingleBitFlipIsRejectedByDecf := by
  intro s t u v n k hpoly ht hcfg hwin hlen
  refine ⟨_, exec_codec (by decide) u, ?_⟩
  rw [State.withRes_res, codecResult, decodeFrameResult_status hlen, hcfg, hwin,
    frameCheck_flipBit hpoly (exec_encfOf_passes ht)]
  split <;> rfl

end Sys2Proof.Proofs

/-! PROOF. Streams of FEEDs (42_stream_decoder.md R165, R170, R172). The 62 bytes after a `START` in SEEKING are held as a
candidate, and the last FEED decides it: a frame that passes is emitted, a frame with one bit flipped is not. A check needs
a full buffer, and a FEED adds one byte to it at most. -/

namespace Sys2Proof.Proofs

open Sys2Proof.Machine Sys2Proof.Claims

/-! ### A candidate -/

theorem sfdInv_of_seeking {s : State} (hst : s.st = .seeking) (hlen : s.len = 0) : SfdInv s := by
  simp [SfdInv, hst, hlen]

theorem bytes_eq_nil_of_len {s : State} (hlen : s.len = 0) : s.buf.bytes = [] :=
  List.eq_nil_of_length_eq_zero (by rw [← len_toNat, hlen]; rfl)

theorem feedStream_sameInputs (s : State) (bs : List Byte) : SameInputs s (feedStream s bs).2 := by
  induction bs generalizing s with
  | nil => exact ⟨rfl, rfl⟩
  | cons b bs ih =>
    obtain ⟨hcfg, hcycles⟩ := ih (feed b s)
    obtain ⟨hcfg', hcycles'⟩ := feed_frame b s
    exact ⟨hcfg.trans hcfg', hcycles.trans hcycles'⟩

/-- A stream that ends with the FEED of `b`. -/
theorem feedStream_snoc (s : State) (bs : List Byte) (b : Byte) :
    feedStream s (bs ++ [b]) = ((feedStream s bs).1 ++ [(feed b (feedStream s bs).2).res], feed b (feedStream s bs).2) :=
  feedStream_append s bs [b]

/-- Fewer than 63 bytes hold no frame. -/
theorem noFrame_of_length_lt (c : Config) {bs : List Byte} (h : bs.length < 63) : NoFrame c bs :=
  fun _ hp => absurd hp (by omega)

/-- R162, R163: 62 bytes that begin with `START` are held as a candidate, and nothing is emitted. -/
theorem feedStream_candidate {s : State} (hst : s.st = .seeking) (hlen : s.len = 0) {w : List Byte} (hw : w.length = 62)
    (hhead : w.head? = some s.cfg.startByte) :
    (feedStream s w).2.st = .accumulating ∧ (feedStream s w).2.buf.bytes = w
      ∧ ∀ r ∈ (feedStream s w).1, r.frameOk = false := by
  have hinv := sfdInv_of_seeking hst hlen
  have hbuf := bytes_eq_nil_of_len hlen
  have hno : NoFrame s.cfg w := noFrame_of_length_lt _ (by omega)
  obtain ⟨hacc, hheld⟩ := feedStream_holds_candidate (j := []) hinv hbuf hw hhead hno
  obtain ⟨-, -, -, hquiet⟩ := feedStream_of_noFrame hinv hbuf hno
  exact ⟨hacc, hheld, hquiet⟩

/-- A frame is 62 bytes, then its last one. -/
theorem exists_toList_eq_snoc (w : Vector Byte 63) : ∃ ws b, w.toList = ws ++ [b] ∧ ws.length = 62 := by
  have hlen : w.toList.length = 63 := by simp
  obtain h | ⟨ws, b, h⟩ := List.eq_nil_or_concat' w.toList
  · simp [h] at hlen
  · exact ⟨ws, b, h, by simpa [h] using hlen⟩

/-- R139: the first 62 bytes of a frame that passes begin with `START`. -/
theorem head?_eq_of_toList_eq_snoc {w : Vector Byte 63} {ws : List Byte} {b : Byte} (h : w.toList = ws ++ [b])
    (hws : ws.length = 62) : ws.head? = some w[0] := by
  have hget : (ws ++ [b])[0]? = some w[0] := by simp [← h]
  rwa [List.getElem?_append_left (by omega), ← List.head?_eq_getElem?] at hget

/-- Settles O54: the frame is held, and its last byte emits it. -/
theorem feedingAValidFrameEmitsIt : Obligations.FeedingAValidFrameEmitsIt := by
  intro s w hst hlen hpass
  obtain ⟨hstart, -, -⟩ := (frameCheck_ok_iff s.cfg w).mp ((frameCheck_eq_ok_iff_passes s.cfg w).mpr hpass)
  obtain ⟨ws, b, hw, hws⟩ := exists_toList_eq_snoc w
  have hhead : ws.head? = some s.cfg.startByte := by rw [head?_eq_of_toList_eq_snoc hw hws, hstart]
  obtain ⟨hacc, hheld, hquiet⟩ := feedStream_candidate hst hlen hws hhead
  obtain ⟨hcfg, hcycles⟩ := feedStream_sameInputs s ws
  obtain ⟨⟨hst', hlen', hbytes', hcfg', hcycles'⟩, hres⟩ :=
    feed_emit (b := b) hacc (by rw [hheld, hws]) (by rwa [hheld, hcfg, ← hw])
  have hresults : (feedStream s ws).1.length = 62 := by rw [feedStream_length, hws]
  rw [hw, feedStream_snoc, hres, hheld, List.take_left' hresults, List.drop_left' hresults]
  exact ⟨hquiet, rfl, hst', hlen', hbytes', hcfg'.trans hcfg, hcycles'.trans hcycles⟩

/-! ### One candidate check per full buffer -/

/-- R164 to R167: the event of a FEED is that of a check exactly for a full candidate. -/
theorem feed_isCheck_iff (b : Byte) (s : State) :
    isCheck (feed b s).res.event = true ↔ s.st = .accumulating ∧ s.buf.bytes.length = 62 := by
  rcases feed_cases b s with ⟨h, e⟩ | ⟨hst, e⟩ | ⟨hst, h1, h61, e⟩ | ⟨hst, hlen, e⟩
  · rw [e]
    refine iff_of_false Bool.false_ne_true ?_
    rintro ⟨hst, hlen⟩
    simp [hst, hlen] at h
  · rw [e, feedSeek]
    refine iff_of_false ?_ (by simp [hst])
    split <;> exact Bool.false_ne_true
  · rw [e]
    exact iff_of_false Bool.false_ne_true (by omega)
  · refine iff_of_true ?_ ⟨hst, hlen⟩
    rw [e]
    rcases feedCandidate_cases (s.buf.bytes ++ [b]) s with ⟨-, e'⟩ | ⟨r, -, -, e'⟩ <;> rw [e']
    · rfl
    · rcases feedReject_cases r (s.buf.bytes ++ [b]) s with ⟨k, -, e''⟩ | ⟨-, e''⟩ <;> rw [e''] <;> rfl

/-- R163 to R167: a FEED adds one byte to the buffer at most, and leaves room for one. -/
theorem FeedBranch.buffer_length {s t : State} {b : Byte} (h : FeedBranch s b t) :
    t.buf.bytes.length ≤ s.buf.bytes.length + 1 ∧ t.buf.bytes.length ≤ 62 := by
  cases h with
  | start hbuf _ ht => simp [nowHolding_bytes ht]
  | append _ hlen ht => simp [nowHolding_bytes ht]; omega
  | keep k hlen _ _ _ ht => simp [nowHolding_bytes ht, hlen]; omega
  | discard _ _ ht | emit _ _ ht | drop _ _ ht => simp [nowSeeking_bytes ht]

/-- The results that are events of a candidate check. -/
def checks (rs : List Res) : Nat := (rs.filter fun r => isCheck r.event).length

/-- R170, from any number of bytes buffered: each check takes a full buffer. -/
theorem checks_feedStream_le {s : State} (hinv : SfdInv s) (bs : List Byte) :
    checks (feedStream s bs).1 ≤ s.buf.bytes.length + bs.length - 62 := by
  induction bs generalizing s with
  | nil => exact Nat.zero_le _
  | cons b bs ih =>
    have hbranch := feed_branch hinv b
    obtain ⟨hgrow, h62⟩ := hbranch.buffer_length
    have hrest := ih hbranch.sfdInv
    have hcheck := feed_isCheck_iff b s
    rw [feedStream_cons, checks, List.filter_cons, List.length_cons]
    rw [checks] at hrest
    split
    · rename_i h
      obtain ⟨-, hfull⟩ := hcheck.mp h
      rw [List.length_cons]
      omega
    · omega

/-- Settles O55, from the condition of a check and the buffer it needs. -/
theorem candidateChecksAreBounded : Obligations.CandidateChecksAreBounded := by
  refine ⟨fun s b => ⟨_, exec_feed b s, ?_⟩, fun s bs hst hlen => ?_⟩
  · rw [len_toNat]
    exact feed_isCheck_iff b s
  · have hbound := checks_feedStream_le (sfdInv_of_seeking hst hlen) bs
    rwa [bytes_eq_nil_of_len hlen, List.length_nil, Nat.zero_add] at hbound

/-! ### A frame with one bit flipped -/

/-- The reason recorded for a rejected candidate is the verdict of the frame check (R166, R167). -/
theorem reason_eq_frameCheck_fail {c : Config} {w : Vector Byte 63} (h : ¬Passes c w.toList) :
    reason c w.toList = (frameCheck c w).fail := by
  rcases frameCheck_verdict c w with ⟨hs, e⟩ | ⟨hs, -, e⟩ | ⟨hpass, -⟩
  · rw [reason, if_pos hs, e]
    rfl
  · rw [reason, if_neg hs, e]
    rfl
  · exact absurd hpass h

/-- R166, R167: the FEED that completes a candidate that fails records the reason. -/
theorem feed_fail_of_not_passes {s : State} {b : Byte} (hst : s.st = .accumulating) (hlen : s.buf.bytes.length = 62)
    (hfail : ¬Passes s.cfg (s.buf.bytes ++ [b])) : (feed b s).res.fail = reason s.cfg (s.buf.bytes ++ [b]) := by
  obtain ⟨r, hr, heq⟩ := feed_reject hst hlen hfail
  rw [heq, ← hr]
  rcases feedReject_cases r (s.buf.bytes ++ [b]) s with ⟨k, -, e⟩ | ⟨-, e⟩ <;> rw [e] <;> rfl

/-- R164: 63 bytes that fail the check hold no frame. -/
theorem noFrame_of_not_passes {c : Config} {w : Vector Byte 63} (h : ¬Passes c w.toList) : NoFrame c w.toList := by
  intro p hp _
  have hlen : w.toList.length = 63 := by simp
  obtain rfl : p = 0 := by omega
  rwa [List.drop_zero, List.take_of_length_le hlen.le]

section RejectedFrame

variable {s : State} (hst : s.st = .seeking) (hlen : s.len = 0) {w : Vector Byte 63} (hfail : ¬Passes s.cfg w.toList)

include hst

/-- R162: 63 bytes that do not begin with `START`: the first is discarded. -/
theorem feedStream_head_discard (hstart : w[0] ≠ s.cfg.startByte) :
    (feedStream s w.toList).1.head?.map (·.event) = some .discard := by
  have hhead : w.toList.head? = some w[0] := by simp [List.head?_eq_getElem?]
  obtain ⟨rest, hcons⟩ := List.head?_eq_some_iff.mp hhead
  obtain ⟨-, hres⟩ := feed_discard (b := w[0]) hst hstart
  rw [hcons, feedStream_cons, List.head?_cons, Option.map_some, hres]
  rfl

include hlen hfail

/-- R164: 63 bytes that fail the check are not emitted. -/
theorem feedStream_quiet_of_not_passes : ∀ r ∈ (feedStream s w.toList).1, r.frameOk = false := by
  obtain ⟨-, -, -, hquiet⟩ :=
    feedStream_of_noFrame (sfdInv_of_seeking hst hlen) (bytes_eq_nil_of_len hlen) (noFrame_of_not_passes hfail)
  exact hquiet

/-- R166, R167: the last FEED of 63 bytes that begin with `START` and fail the check records the verdict. -/
theorem feedStream_last_fail (hstart : w[0] = s.cfg.startByte) :
    (feedStream s w.toList).1.getLast?.map (·.fail) = some (frameCheck s.cfg w).fail := by
  obtain ⟨ws, b, hw, hws⟩ := exists_toList_eq_snoc w
  have hhead : ws.head? = some s.cfg.startByte := by rw [head?_eq_of_toList_eq_snoc hw hws, hstart]
  obtain ⟨hacc, hheld, -⟩ := feedStream_candidate hst hlen hws hhead
  obtain ⟨hcfg, -⟩ := feedStream_sameInputs s ws
  have hres := feed_fail_of_not_passes (b := b) hacc (by rw [hheld, hws]) (by rwa [hheld, hcfg, ← hw])
  rw [hheld, hcfg, ← hw, reason_eq_frameCheck_fail hfail] at hres
  rw [hw, feedStream_snoc, List.getLast?_concat, Option.map_some, hres]

end RejectedFrame

/-- Settles O57, from the verdict of the frame check on the flipped frame. -/
theorem singleBitFlipIsNeverEmitted : Obligations.SingleBitFlipIsNeverEmitted := by
  intro s t v n k hpoly hst hlen ht
  have hpass := exec_encfOf_passes ht
  have hst' : t.st = .seeking := by rw [exec_encfOf_res ht]; exact hst
  have hlen' : t.len = 0 := by rw [exec_encfOf_res ht]; exact hlen
  have hcfg : s.cfg = t.cfg := by rw [exec_encfOf_res ht]; rfl
  rw [hcfg] at hpoly hpass
  obtain ⟨hstart, -, -⟩ := (frameCheck_ok_iff _ _).mp ((frameCheck_eq_ok_iff_passes _ _).mpr hpass)
  have hverdict := frameCheck_flipBit hpoly hpass n k
  have hfail : ¬Passes t.cfg (flipBit t.res.frame n k).toList := by
    rw [← frameCheck_eq_ok_iff_passes, hverdict]
    split <;> exact Verdict.noConfusion
  have hlast (hn : n.val ≠ 0) :=
    feedStream_last_fail hst' hlen' hfail ((getElem_flipBit_ne _ k (by decide) hn).trans hstart)
  refine ⟨feedStream_quiet_of_not_passes hst' hlen' hfail, fun h1 h61 => ?inner, fun h62 => ?stop, fun h0 => ?start⟩
  case inner =>
    rw [hlast (by omega), hverdict, if_neg (by omega)]
    rfl
  case stop =>
    rw [hlast (by omega), hverdict, if_pos (.inr h62)]
    rfl
  case start =>
    refine feedStream_head_discard hst' ?_
    rw [← hstart]
    simpa only [h0] using getElem_flipBit_self_ne t.res.frame n k

end Sys2Proof.Proofs
